-- ==== Sys2Proof/Word.lean ====
section
/-!
DEFINITION. The widths the spec names (00_scope.md R10, R11, 30_encoding.md R80): a command or response
word has 16 bits, a sample has 8.
-/

namespace Sys2Proof

/-- A command word, a response word or a CSR word (30_encoding.md R80, R84, 20_memory.md R60). -/
abbrev Word := BitVec 16

/-- A sample or an 8-bit operand field (00_scope.md R10, 30_encoding.md R82). -/
abbrev Byte := BitVec 8

/-- A multiplexer channel, 0..7 (00_scope.md R10). -/
abbrev Channel := BitVec 3

end Sys2Proof
end

