-- ==== Sys2Proof/Syntax.lean ====
section
/-!
DEFINITION. The operations of the block: one constructor per row of spec/opcode_table.json
(30_encoding.md R85), with the operands of the row's format (R82, R83).
-/

namespace Sys2Proof

/-- The 42 operations of 30_encoding.md R85. Operand fields are as wide as their format has them (R82); which
values are legal is `Instr.wellFormed`. -/
inductive Instr where
  /-- SYS.NOP (R250) -/
  | sysNop
  /-- SYS.CLI (R251) -/
  | sysCli
  /-- SYS.SEI (R252) -/
  | sysSei
  /-- SC.REGISTER sink, ch (R104) -/
  | scRegister (sink : BitVec 2) (ch : Channel)
  /-- SC.UNREGISTER sink (R105) -/
  | scUnregister (sink : BitVec 2)
  /-- ADC.SELECT ch (R100), internal -/
  | adcSelect (ch : Channel)
  /-- ADC.START (R101), internal -/
  | adcStart
  /-- ADC.READY (R102), internal -/
  | adcReady
  /-- ADC.READ (R103), internal -/
  | adcRead
  /-- MA.CLEAR (R130) -/
  | maClear
  /-- MA.PUSH v (R131) -/
  | maPush (v : Byte)
  /-- MA.SUM (R132) -/
  | maSum
  /-- MA.AVERAGE (R133) -/
  | maAverage
  /-- PD.CLEAR (R140) -/
  | pdClear
  /-- PD.PROCESS v (R141) -/
  | pdProcess (v : Byte)
  /-- AVG.CLEAR (R150) -/
  | avgClear
  /-- AVG.PROCESS v (R151) -/
  | avgProcess (v : Byte)
  /-- AVG.VALUE (R152) -/
  | avgValue
  /-- AVG.DONE (R153) -/
  | avgDone
  /-- CNT.CLEAR (R160) -/
  | cntClear
  /-- CNT.PROCESS v (R161) -/
  | cntProcess (v : Byte)
  /-- CNT.COUNT (R162) -/
  | cntCount
  /-- TASK.START task (R170) -/
  | taskStart (task : BitVec 2)
  /-- TASK.STOP task (R172) -/
  | taskStop (task : BitVec 2)
  /-- TASK.FINISHED task (R173) -/
  | taskFinished (task : BitVec 2)
  /-- TASK.SERVICE1 v (R175) -/
  | taskService1 (v : Byte)
  /-- TASK.SERVICE2 v (R176) -/
  | taskService2 (v : Byte)
  /-- TASK.SERVICE3 v (R177) -/
  | taskService3 (v : Byte)
  /-- WI.INIT (R190) -/
  | wiInit
  /-- WI.START_SAMPLE b (R192): `false` names the emulator, `true` the host -/
  | wiStartSample (b : Bool)
  /-- WI.ABORT (R193) -/
  | wiAbort
  /-- WI.SERVICE (R194) -/
  | wiService
  /-- WI.GET_MPH (R199) -/
  | wiGetMph
  /-- WI.GET_DIR (R200) -/
  | wiGetDir
  /-- WI.ACK (R201) -/
  | wiAck
  /-- EMU.SERVICE (R222) -/
  | emuService
  /-- EMU.ON_COMPLETE (R226), internal -/
  | emuOnComplete
  /-- EMU.BUILD_FRAME (R227), internal -/
  | emuBuildFrame
  /-- EMU.WRITE_BIT b (R231), internal: `true` is high -/
  | emuWriteBit (b : Bool)
  /-- EV.TICK (R110), internal -/
  | evTick
  /-- EV.EDGE (R178), internal -/
  | evEdge
  /-- CSR.READ a (R253) -/
  | csrRead (a : Byte)
deriving DecidableEq, Repr

end Sys2Proof
end

