-- ==== Sys2Proof/WellFormed.lean ====
section
/-!
DEFINITION. The operand values an operation admits (30_encoding.md R86 (d)).
-/

namespace Sys2Proof

/-- 30_encoding.md R86 (d): SC.REGISTER takes sink 1 or 2, SC.UNREGISTER takes sink 0, 1 or 2, the three task
commands take task 1, 2 or 3. Every other operand admits every value of its field. -/
def Instr.wellFormed : Instr → Bool
  | .scRegister sink _ => sink == 1 || sink == 2
  | .scUnregister sink => sink != 3
  | .taskStart task => task != 0
  | .taskStop task => task != 0
  | .taskFinished task => task != 0
  | .sysNop | .sysCli | .sysSei | .adcSelect _ | .adcStart | .adcReady | .adcRead
  | .maClear | .maPush _ | .maSum | .maAverage | .pdClear | .pdProcess _
  | .avgClear | .avgProcess _ | .avgValue | .avgDone | .cntClear | .cntProcess _ | .cntCount
  | .taskService1 _ | .taskService2 _ | .taskService3 _
  | .wiInit | .wiStartSample _ | .wiAbort | .wiService | .wiGetMph | .wiGetDir | .wiAck
  | .emuService | .emuOnComplete | .emuBuildFrame | .emuWriteBit _
  | .evTick | .evEdge | .csrRead _ => true

end Sys2Proof
end

