-- ==== Sys2Proof/Decode.lean ====
section
/-!
DEFINITION. Decoding a command word (30_encoding.md R80 to R87), the encoder, and the opcode map of R85 as data.
-/

namespace Sys2Proof

/-- Why a word stands for no operation (30_encoding.md R86 (a), (b), (c)). -/
inductive DecodeError where
  /-- R86 (a): UNIT is 0xA..0xD. -/
  | reservedUnit
  /-- R86 (b): the (UNIT, OP) pair is not in R85. -/
  | unlistedOp
  /-- R86 (c): a reserved IMM bit of the row's format is 1. -/
  | reservedImmBit
deriving DecidableEq, Repr

/-- What the decoder answers: an operation of R85, or the reason there is none. -/
inductive Decoded where
  | ok (i : Instr)
  | reject (e : DecodeError)
deriving DecidableEq, Repr

/-- UNIT and OP together, bits [15:8] (R81). -/
def unitOpField (w : Word) : Byte := w.extractLsb' 8 8

/-- IMM, bits [7:0] (R81). -/
def immField (w : Word) : Byte := w.extractLsb' 0 8

/-- Format N: IMM is 0 (R82). -/
def formatN (imm : Byte) (i : Instr) : Decoded :=
  if imm = 0 then .ok i else .reject .reservedImmBit

/-- Formats V and A: IMM is the operand (R82). -/
def formatV (imm : Byte) (f : Byte → Instr) : Decoded := .ok (f imm)

/-- Format S: sink in [1:0], ch in [4:2], [7:5] reserved (R82). -/
def formatS (imm : Byte) (f : BitVec 2 → Channel → Instr) : Decoded :=
  if imm.extractLsb' 5 3 = 0 then .ok (f (imm.extractLsb' 0 2) (imm.extractLsb' 2 3)) else .reject .reservedImmBit

/-- Formats U and T: the operand in [1:0], [7:2] reserved (R82). -/
def formatU (imm : Byte) (f : BitVec 2 → Instr) : Decoded :=
  if imm.extractLsb' 2 6 = 0 then .ok (f (imm.extractLsb' 0 2)) else .reject .reservedImmBit

/-- Format C: ch in [2:0], [7:3] reserved (R82). -/
def formatC (imm : Byte) (f : Channel → Instr) : Decoded :=
  if imm.extractLsb' 3 5 = 0 then .ok (f (imm.extractLsb' 0 3)) else .reject .reservedImmBit

/-- Format B: b in [0], [7:1] reserved (R82). -/
def formatB (imm : Byte) (f : Bool → Instr) : Decoded :=
  if imm.extractLsb' 1 7 = 0 then .ok (f (imm.getLsbD 0)) else .reject .reservedImmBit

/-- The operation a word names by its mask and match in R85. It reads an operand whatever its value: R86 (d) is
`Instr.wellFormed`, R86 (e) is `Instr.isInternal`. -/
def decode (w : Word) : Decoded :=
  let imm := immField w
  match (unitOpField w).toNat with
  | 0x00 => formatN imm .sysNop
  | 0x01 => formatN imm .sysCli
  | 0x02 => formatN imm .sysSei
  | 0x10 => formatS imm .scRegister
  | 0x11 => formatU imm .scUnregister
  | 0x20 => formatC imm .adcSelect
  | 0x21 => formatN imm .adcStart
  | 0x22 => formatN imm .adcReady
  | 0x23 => formatN imm .adcRead
  | 0x30 => formatN imm .maClear
  | 0x31 => formatV imm .maPush
  | 0x32 => formatN imm .maSum
  | 0x33 => formatN imm .maAverage
  | 0x40 => formatN imm .pdClear
  | 0x41 => formatV imm .pdProcess
  | 0x50 => formatN imm .avgClear
  | 0x51 => formatV imm .avgProcess
  | 0x52 => formatN imm .avgValue
  | 0x53 => formatN imm .avgDone
  | 0x60 => formatN imm .cntClear
  | 0x61 => formatV imm .cntProcess
  | 0x62 => formatN imm .cntCount
  | 0x70 => formatU imm .taskStart
  | 0x71 => formatU imm .taskStop
  | 0x72 => formatU imm .taskFinished
  | 0x75 => formatV imm .taskService1
  | 0x76 => formatV imm .taskService2
  | 0x77 => formatV imm .taskService3
  | 0x80 => formatN imm .wiInit
  | 0x81 => formatB imm .wiStartSample
  | 0x82 => formatN imm .wiAbort
  | 0x83 => formatN imm .wiService
  | 0x84 => formatN imm .wiGetMph
  | 0x85 => formatN imm .wiGetDir
  | 0x86 => formatN imm .wiAck
  | 0x90 => formatN imm .emuService
  | 0x91 => formatN imm .emuOnComplete
  | 0x92 => formatN imm .emuBuildFrame
  | 0x93 => formatB imm .emuWriteBit
  | 0xE0 => formatN imm .evTick
  | 0xE1 => formatN imm .evEdge
  | 0xF0 => formatV imm .csrRead
  | n => .reject (if 0xA0 ≤ n ∧ n < 0xE0 then .reservedUnit else .unlistedOp)

/-- The kind column of R85: `true` for an internal operation, which only another rule or the interrupt agent
performs (00_scope.md R16). -/
def Instr.isInternal : Instr → Bool
  | .adcSelect _ | .adcStart | .adcReady | .adcRead
  | .emuOnComplete | .emuBuildFrame | .emuWriteBit _ | .evTick | .evEdge => true
  | .sysNop | .sysCli | .sysSei | .scRegister _ _ | .scUnregister _
  | .maClear | .maPush _ | .maSum | .maAverage | .pdClear | .pdProcess _
  | .avgClear | .avgProcess _ | .avgValue | .avgDone | .cntClear | .cntProcess _ | .cntCount
  | .taskStart _ | .taskStop _ | .taskFinished _
  | .taskService1 _ | .taskService2 _ | .taskService3 _
  | .wiInit | .wiStartSample _ | .wiAbort | .wiService | .wiGetMph | .wiGetDir | .wiAck
  | .emuService | .csrRead _ => false

/-- A word from bits [15:8] and IMM (R81). -/
def commandWord (unitOp imm : Byte) : Word := unitOp ++ imm

/-- IMM of format S (R82). -/
def immS (sink : BitVec 2) (ch : Channel) : Byte := 0#3 ++ ch ++ sink

/-- IMM of formats U and T (R82). -/
def immU (x : BitVec 2) : Byte := 0#6 ++ x

/-- IMM of format C (R82). -/
def immC (ch : Channel) : Byte := 0#5 ++ ch

/-- IMM of format B (R82). -/
def immB (b : Bool) : Byte := 0#7 ++ BitVec.ofBool b

/-- The word of an operation, from the match column of R85 and the formats of R82. -/
def encode : Instr → Word
  | .sysNop => commandWord 0x00 0
  | .sysCli => commandWord 0x01 0
  | .sysSei => commandWord 0x02 0
  | .scRegister sink ch => commandWord 0x10 (immS sink ch)
  | .scUnregister sink => commandWord 0x11 (immU sink)
  | .adcSelect ch => commandWord 0x20 (immC ch)
  | .adcStart => commandWord 0x21 0
  | .adcReady => commandWord 0x22 0
  | .adcRead => commandWord 0x23 0
  | .maClear => commandWord 0x30 0
  | .maPush v => commandWord 0x31 v
  | .maSum => commandWord 0x32 0
  | .maAverage => commandWord 0x33 0
  | .pdClear => commandWord 0x40 0
  | .pdProcess v => commandWord 0x41 v
  | .avgClear => commandWord 0x50 0
  | .avgProcess v => commandWord 0x51 v
  | .avgValue => commandWord 0x52 0
  | .avgDone => commandWord 0x53 0
  | .cntClear => commandWord 0x60 0
  | .cntProcess v => commandWord 0x61 v
  | .cntCount => commandWord 0x62 0
  | .taskStart task => commandWord 0x70 (immU task)
  | .taskStop task => commandWord 0x71 (immU task)
  | .taskFinished task => commandWord 0x72 (immU task)
  | .taskService1 v => commandWord 0x75 v
  | .taskService2 v => commandWord 0x76 v
  | .taskService3 v => commandWord 0x77 v
  | .wiInit => commandWord 0x80 0
  | .wiStartSample b => commandWord 0x81 (immB b)
  | .wiAbort => commandWord 0x82 0
  | .wiService => commandWord 0x83 0
  | .wiGetMph => commandWord 0x84 0
  | .wiGetDir => commandWord 0x85 0
  | .wiAck => commandWord 0x86 0
  | .emuService => commandWord 0x90 0
  | .emuOnComplete => commandWord 0x91 0
  | .emuBuildFrame => commandWord 0x92 0
  | .emuWriteBit b => commandWord 0x93 (immB b)
  | .evTick => commandWord 0xE0 0
  | .evEdge => commandWord 0xE1 0
  | .csrRead a => commandWord 0xF0 a

/-- The match and mask columns of one row of R85. -/
structure OpcodeRow where
  pattern : Word
  mask : Word
deriving DecidableEq, Repr

/-- 30_encoding.md R85: a word belongs to a row when it equals the row's match in every bit of the mask. -/
def OpcodeRow.holds (r : OpcodeRow) (w : Word) : Bool := w &&& r.mask == r.pattern

/-- The 42 rows of 30_encoding.md R85, in its order. -/
def opcodeRows : List OpcodeRow :=
  [⟨0x0000, 0xFFFF⟩, ⟨0x0100, 0xFFFF⟩, ⟨0x0200, 0xFFFF⟩, ⟨0x1000, 0xFFE0⟩, ⟨0x1100, 0xFFFC⟩, ⟨0x2000, 0xFFF8⟩,
   ⟨0x2100, 0xFFFF⟩, ⟨0x2200, 0xFFFF⟩, ⟨0x2300, 0xFFFF⟩, ⟨0x3000, 0xFFFF⟩, ⟨0x3100, 0xFF00⟩, ⟨0x3200, 0xFFFF⟩,
   ⟨0x3300, 0xFFFF⟩, ⟨0x4000, 0xFFFF⟩] ++
  [⟨0x4100, 0xFF00⟩, ⟨0x5000, 0xFFFF⟩, ⟨0x5100, 0xFF00⟩, ⟨0x5200, 0xFFFF⟩, ⟨0x5300, 0xFFFF⟩, ⟨0x6000, 0xFFFF⟩,
   ⟨0x6100, 0xFF00⟩, ⟨0x6200, 0xFFFF⟩, ⟨0x7000, 0xFFFC⟩, ⟨0x7100, 0xFFFC⟩, ⟨0x7200, 0xFFFC⟩, ⟨0x7500, 0xFF00⟩,
   ⟨0x7600, 0xFF00⟩, ⟨0x7700, 0xFF00⟩] ++
  [⟨0x8000, 0xFFFF⟩, ⟨0x8100, 0xFFFE⟩, ⟨0x8200, 0xFFFF⟩, ⟨0x8300, 0xFFFF⟩, ⟨0x8400, 0xFFFF⟩, ⟨0x8500, 0xFFFF⟩,
   ⟨0x8600, 0xFFFF⟩, ⟨0x9000, 0xFFFF⟩, ⟨0x9100, 0xFFFF⟩, ⟨0x9200, 0xFFFF⟩, ⟨0x9300, 0xFFFE⟩, ⟨0xE000, 0xFFFF⟩,
   ⟨0xE100, 0xFFFF⟩, ⟨0xF000, 0xFF00⟩]

/-- The operation the decoder reads from an opcode-table word of `nbits` bits: the block's word is those bits, and
every bit above them 0. -/
def decodeTableWord (nbits w : Nat) : Option Instr :=
  match decode (BitVec.ofNat 16 (w % 2 ^ nbits)) with
  | .ok i => some i
  | .reject _ => none

end Sys2Proof
end

