-- ==== Sys2Proof/Config.lean ====
section
/-!
DEFINITION. What an implementation fixes: the elaboration-time parameters of 00_scope.md R9
(their legal ranges are `legalParams`, Machine/Flags.lean), the values the environment draws at reset (70_reset_and_hazards.md R290), and the free
values, which no rule of the spec fixes.
-/

namespace Sys2Proof

/-- P_SPEED_SRC (R9, D19): which task is the reading sequencer's speed task. -/
inductive SpeedSource where
  /-- 0: ADC samples through the pulse detector (task 1). -/
  | pulseDetector
  /-- 1: PULSE edges through the sample counter (task 3). -/
  | edgeCounter
deriving DecidableEq, Repr

/-- P_MUX_SWITCH (R9, D11): where the tick handler reprograms the multiplexer. -/
inductive MuxSwitch where
  /-- 0: at step 4 of R110, after the settle countdown. -/
  | literal
  /-- 1: at step 4e of R110, before the settle countdown. -/
  | early
deriving DecidableEq, Repr

/-- The implementation parameters of 00_scope.md R9, with the widths of its table. -/
structure Params where
  /-- P_SETTLE_K -/
  settleK : Byte
  /-- P_TICK_US -/
  tickUs : Word
  /-- P_ADC_CONV_US -/
  adcConvUs : Word
  /-- P_MA_WMAX -/
  maWmax : Byte
  /-- P_MA_WIDTH, the W of the rules -/
  maWidth : Byte
  /-- P_PD_LOW -/
  pdLow : Byte
  /-- P_PD_THRESH, the T of the rules -/
  pdThresh : Byte
  /-- P_PD_DEBOUNCE, the D of the rules -/
  pdDebounce : Byte
  /-- P_AVG_N -/
  avgN : Byte
  /-- P_SPEED_PERIOD_MS -/
  speedPeriodMs : Word
  /-- P_BIT_US -/
  bitUs : Word
  /-- P_SPEED_CH -/
  speedCh : Channel
  /-- P_DIR_CH -/
  dirCh : Channel
  /-- P_SPEED_SRC -/
  speedSrc : SpeedSource
  /-- P_TXD_BUSY -/
  txdBusy : Bool
  /-- P_MUX_SWITCH -/
  muxSwitch : MuxSwitch
  /-- P_DIR_SHIFT -/
  dirShift : BitVec 4
deriving DecidableEq, Repr

/-- The parameters of `State.reset`: the values of R9 where it gives one, and for the OPEN ones the vector set
of 92_eei_decisions.md with P_PD_DEBOUNCE = 6.
DESIGN CHOICE (entry 1), unsafe: the spec gives the OPEN parameters no value. Nothing else in the model reads this
definition; the rules read the parameters from the state. -/
def Params.vectorSet : Params where
  settleK := 4
  tickUs := 1000
  adcConvUs := 100
  maWmax := 4
  maWidth := 4
  pdLow := 64
  pdThresh := 4
  pdDebounce := 6
  avgN := 10
  speedPeriodMs := 2250
  bitUs := 1220
  speedCh := 1
  dirCh := 3
  speedSrc := .pulseDetector
  txdBusy := true
  muxSwitch := .literal
  dirShift := 2

/-- What the environment chooses at reset: the elements R290 marks Draw, the level of the DTR pin and the analog
inputs (93_implementation_defined.md I1, I2). -/
structure Draws where
  timeUs : BitVec 32
  timeMs : BitVec 32
  adcResult : Byte
  /-- The level of the PULSE pin. -/
  pulse : Bool
  /-- The level of the DTR pin; `false` is active (00_scope.md R7). -/
  dtr : Bool
  /-- The levels of AIN0..AIN7. -/
  ain : Vector Byte 8
deriving DecidableEq, Repr

/-- The draws of `State.reset`. DESIGN CHOICE (entries 2 and 3), unsafe: the counters and `adc_result` are 0, PULSE
and DTR are high, every analog input is 0. -/
def Draws.chosen : Draws where
  timeUs := 0
  timeMs := 0
  adcResult := 0
  pulse := true
  dtr := true
  ain := Vector.replicate 8 0

/-- Free value: with both interrupts pending, whether EV.EDGE runs before EV.TICK. R266 says either may run first.
DESIGN CHOICE (entry 6), safe: nothing constrains it. Applied to the state's counter `free`. -/
opaque Config.edgeFirst : Nat → Bool

/-- Free value: the quotient of R196 when `avg_count` is 0 (a host cleared the averager after task 2 had finished).
DESIGN CHOICE (entry 7), safe: the spec states no result there. Applied to the state's counter `free`. -/
opaque Config.emptyAverage : Nat → Word

end Sys2Proof
end

