-- ==== Sys2Proof/Machine/State.lean ====
section
/-!
DEFINITION. Every state element of 10_state.md, grouped by unit, the reset state of 70_reset_and_hazards.md R290,
and the reasons a step can stop.
-/

namespace Sys2Proof.Machine

/-- The time counters and the tick timer's phase (10_state.md R22, R25). -/
structure TimeBase where
  timeUs : BitVec 32
  timeMs : BitVec 32
  msPresc : BitVec 10
  tickCnt : Word
deriving DecidableEq, Repr

/-- The interrupt state (10_state.md R23, R24, R27, R29). -/
structure Interrupts where
  ie : Bool
  tickPending : Bool
  edgePending : Bool
  inIsr : Bool
  tickOvr : Bool
  edgeOvr : Bool
deriving DecidableEq, Repr

/-- The sticky fault bits (bit 0 ILLEGAL_CMD, bit 1 AVG_NOT_DONE) and the first faulting word (10_state.md R30). -/
structure FaultUnit where
  fault : BitVec 2
  faultCmd : Word
deriving DecidableEq, Repr

/-- The values of `sc_sink` (10_state.md R31). -/
inductive Sink where
  /-- 0 -/
  | none
  /-- 1: task 1 -/
  | speed
  /-- 2: task 2 -/
  | direction
deriving DecidableEq, Repr

/-- The sample clock (10_state.md R28, R31, R32, R33). -/
structure SampleClock where
  sink : Sink
  desCh : Channel
  curCh : Channel
  settle : Byte
  staleCnt : Word
deriving DecidableEq, Repr

/-- The ADC (10_state.md R33). -/
structure Adc where
  busy : Bool
  remain : Word
  convCh : Channel
  result : Byte
deriving DecidableEq, Repr

/-- The moving average (10_state.md R34). -/
structure MovingAverage where
  buf : List Byte
  sum : Word
  idx : Byte
  fill : Byte
deriving DecidableEq, Repr

/-- The pulse detector (10_state.md R35). -/
structure PulseDetector where
  deb : Byte
  asserted : Bool
  fired : Bool
deriving DecidableEq, Repr

/-- The averager (10_state.md R36). -/
structure Averager where
  sum : Word
  count : Byte
  done : Bool
deriving DecidableEq, Repr

/-- The three task slots (42_tasks.md). -/
inductive TaskId where
  /-- task 1 -/
  | speed
  /-- task 2 -/
  | direction
  /-- task 3 -/
  | edge
deriving DecidableEq, Repr

/-- The flags of one task (10_state.md R38). -/
structure TaskFlags where
  started : Bool
  finished : Bool
deriving DecidableEq, Repr

/-- The tasks' flags, timers and the pulse count (10_state.md R38, R39). -/
structure Tasks where
  t1 : TaskFlags
  t2 : TaskFlags
  t3 : TaskFlags
  t1Pulses : Byte
  t1StartMs : BitVec 32
  t3StartMs : BitVec 32
deriving DecidableEq, Repr

/-- The values of `wi_state` (10_state.md R40). -/
inductive WiState where
  | idle
  | newSample
  | samplingSpeed
  | samplingDirection
  | sendFrame
deriving DecidableEq, Repr

/-- The values of `wi_cb_target` (10_state.md R41). -/
inductive CallbackTarget where
  /-- 0: EMU.ON_COMPLETE -/
  | emulator
  /-- 1: the host -/
  | host
deriving DecidableEq, Repr

/-- The reading sequencer (10_state.md R40 to R43). -/
structure Instrument where
  state : WiState
  init : Bool
  cbValid : Bool
  cbTarget : CallbackTarget
  hostDone : Bool
  pcap : Byte
  dcap : Word
  lastPc : Byte
  lastDirRaw : Word
deriving DecidableEq, Repr

/-- The values of `emu_state` (10_state.md R44). -/
inductive EmuState where
  | disabled
  | startSample
  | sampling
  | sending
deriving DecidableEq, Repr

/-- The emulator, its bit writer and the output levels (10_state.md R44, R45); `true` is a high level. -/
structure Emulator where
  state : EmuState
  writing : Bool
  bitIdx : BitVec 6
  t0 : BitVec 32
  frame : BitVec 42
  txd : Bool
  ind : Bool
deriving DecidableEq, Repr

/-- The present levels of the input pins (00_scope.md R7, 10_state.md R26, 20_memory.md R71). -/
structure Pins where
  dtr : Bool
  pulse : Bool
  ain : Vector Byte 8
deriving DecidableEq, Repr

/-- One environment step (20_memory.md R71): a pin takes a level, or an analog input a value. -/
inductive EnvStep where
  | dtr (level : Bool)
  | pulse (level : Bool)
  | ain (ch : Channel) (v : Byte)
deriving DecidableEq, Repr

/-- One move of an agent outside the interrupt agent (00_scope.md R6). -/
inductive Move where
  /-- The host issues a word on the command port. -/
  | command (w : Word)
  /-- One time-base step (20_memory.md R70). -/
  | time
  /-- One environment step (20_memory.md R71). -/
  | env (e : EnvStep)
deriving DecidableEq, Repr

/-- The block's state. -/
structure State where
  /-- The elaborated parameters (00_scope.md R9), which nothing writes (20_memory.md R62). -/
  cfg : Params
  time : TimeBase
  irq : Interrupts
  faults : FaultUnit
  sc : SampleClock
  adc : Adc
  ma : MovingAverage
  pd : PulseDetector
  avg : Averager
  /-- `cnt_count` (10_state.md R37) -/
  cntCount : Byte
  tasks : Tasks
  wi : Instrument
  emu : Emulator
  /-- The response word (10_state.md R46). `port_busy` equals `emu_writing` and is not stored again (entry 14). -/
  resp : Word
  pins : Pins
  /-- The model's own field: the moves to come, the next one first (entry 4). -/
  agenda : List Move
  /-- The model's own field: the counter the free values are applied to (entry 15). -/
  free : Nat
deriving DecidableEq, Repr

/-- Why the model stops where the spec says a state or a call cannot arise. None of these is a fault of the
hardware: the block's own faults (60_exceptions.md R260) are next states. -/
inductive Fault where
  /-- Raised by the block's step before anything else, in a state with a value that 93_implementation_defined.md
  I9 calls unreachable (`bitIdx` above 42, `idx` at or above W, `msPresc` at or above 1000), or with a ring that
  does not have W entries (20_memory.md R75), or with a `tickCnt` outside R25's range. Safe: nothing is claimed
  to happen there. -/
  | unreachableEncoding
  /-- Raised by EMU.SERVICE in SENDING while a frame is on the wire, the case that 44_emulator.md R225 says cannot
  arise. Safe. -/
  | serviceWhileWriting
deriving DecidableEq, Repr

/-- Why the model refuses a step. -/
inductive Refusal where
  /-- Raised by an arm of `exec` that has no meaning yet. Safe. No arm raises it in this model. -/
  | notModelled (mnemonic : String)
  /-- Raised by the block's step under parameters outside the legal ranges, which 00_scope.md R9 refuses
  (93_implementation_defined.md I10). Safe. -/
  | illegalConfiguration
deriving DecidableEq, Repr

/-- The answer of a meaning and of a step. -/
abbrev Result := Host.Outcome State Fault Refusal

/-- A task slot after reset and before its first start (R290). -/
def TaskFlags.idle : TaskFlags where
  started := false
  finished := false

/-- The state after reset (70_reset_and_hazards.md R290, R291) of a block elaborated with `p`, when the environment
draws `d`. The agenda and the counter of free values are the model's own (entries 4 and 15). -/
def State.resetWith (p : Params) (d : Draws) : State where
  cfg := p
  time := { timeUs := d.timeUs, timeMs := d.timeMs, msPresc := 0, tickCnt := 0 }
  irq := { ie := true, tickPending := false, edgePending := false, inIsr := false, tickOvr := false, edgeOvr := false }
  faults := { fault := 0, faultCmd := 0 }
  sc := { sink := .none, desCh := 0, curCh := 0, settle := 0, staleCnt := 0 }
  adc := { busy := true, remain := p.adcConvUs, convCh := 0, result := d.adcResult }
  ma := { buf := List.replicate p.maWidth.toNat 0, sum := 0, idx := 0, fill := 0 }
  pd := { deb := 0, asserted := false, fired := false }
  avg := { sum := 0, count := 0, done := false }
  cntCount := 0
  tasks := { t1 := .idle, t2 := .idle, t3 := .idle, t1Pulses := 0, t1StartMs := 0, t3StartMs := 0 }
  wi := { state := .idle, init := false, cbValid := false, cbTarget := .emulator, hostDone := false,
          pcap := 0, dcap := 0, lastPc := 0, lastDirRaw := 0 }
  emu := { state := .disabled, writing := false, bitIdx := 0, t0 := 0, frame := 0, txd := true, ind := false }
  resp := 0
  pins := { dtr := d.dtr, pulse := d.pulse, ain := d.ain }
  agenda := []
  free := 0

/-- The machine right after reset: R290 with the parameters and the draws the log names (entries 1, 2, 3). -/
def State.reset : State := State.resetWith .vectorSet .chosen

end Sys2Proof.Machine
end

