-- ==== Sys2Proof/Machine/Flags.lean ====
section
/-!
DEFINITION. How the status flags of 10_state.md R47 are computed, and the conditions the rules test.
-/

namespace Sys2Proof.Machine

/-- The legal ranges and constraints of 00_scope.md R9 and 70_reset_and_hazards.md R307. The upper bounds of
R9's table are the fields' widths; P_ADC_CONV_US ≤ 65534 follows from P_TICK_US > P_ADC_CONV_US. -/
def legalParams (p : Params) : Bool :=
  decide (4 ≤ p.settleK.toNat) &&
  decide (1 ≤ p.adcConvUs.toNat) &&
  decide (p.adcConvUs.toNat < p.tickUs.toNat) &&
  decide (1 ≤ p.pdThresh.toNat) &&
  decide (p.pdThresh.toNat ≤ p.maWidth.toNat) &&
  decide (p.maWidth.toNat ≤ p.maWmax.toNat) &&
  decide (1 ≤ p.avgN.toNat) &&
  decide (2000 ≤ p.speedPeriodMs.toNat) &&
  decide (1 ≤ p.bitUs.toNat) &&
  decide (p.dirShift.toNat ≤ 6)

/-- `port_busy` equals `emu_writing` (10_state.md R46, 44_emulator.md R230). -/
def portBusy (s : State) : Bool := s.emu.writing

/-- 60_exceptions.md R266: an interrupt is eligible when `ie = 1`, `in_isr = 0` and a request is pending. -/
def interruptEligible (s : State) : Bool :=
  s.irq.ie && !s.irq.inIsr && (s.irq.tickPending || s.irq.edgePending)

/-- `elapsed(a, b)`, the wrap-safe difference of two 32-bit times (00_scope.md R14). -/
def elapsed (a b : BitVec 32) : BitVec 32 := a - b

/-- The window of a time-driven task is over (42_tasks.md R174). -/
def windowElapsed (p : Params) (now start : BitVec 32) : Bool :=
  decide (p.speedPeriodMs.toNat ≤ (elapsed now start).toNat)

/-- `t_finished[t]` after a time-base step, for a time-driven task (20_memory.md R70 step 3, 42_tasks.md R174). -/
def timeDrivenFinish (p : Params) (now start : BitVec 32) (t : TaskFlags) : TaskFlags :=
  if t.started && !t.finished && windowElapsed p now start then { t with finished := true } else t

/-- A task processes a sample only while it is started and not finished (42_tasks.md R175, R176, R177). -/
def acceptsSample (t : TaskFlags) : Bool := t.started && !t.finished

/-- The inverted binary value of a sample: 1 for a low (busy) one (41_filters.md R141 step 1). -/
def lowBit (p : Params) (v : Byte) : Byte :=
  if v.toNat ≤ p.pdLow.toNat then 1 else 0

/-- `pd_asserted`: the pulse statistic is reached (41_filters.md R141 step 3, R142). -/
def pulseAsserted (p : Params) (sum : Word) : Bool :=
  decide (p.pdThresh.toNat ≤ sum.toNat)

/-- `pd_fired`: asserted with the debounce counter at 0 (41_filters.md R141 step 4). -/
def pulseFired (asserted : Bool) (deb : Byte) : Bool :=
  asserted && deb == 0

/-- `avg_done` after a sample is counted (41_filters.md R151). -/
def averageDone (p : Params) (count : Byte) : Bool := count == p.avgN

/-- A change of PULSE from 1 to 0 is a falling edge (10_state.md R26). -/
def fallingEdge (before after : Bool) : Bool := before && !after

/-- The values that 93_implementation_defined.md I9 calls unreachable do not occur, the ring has W entries
(20_memory.md R75) and the tick timer's phase is in its range (10_state.md R25). -/
def encodingReachable (s : State) : Bool :=
  decide (s.emu.bitIdx.toNat ≤ 42) &&
  decide (s.ma.idx.toNat < s.cfg.maWidth.toNat) &&
  decide (s.ma.buf.length = s.cfg.maWidth.toNat) &&
  decide (s.time.msPresc.toNat < 1000) &&
  decide (s.time.tickCnt.toNat < s.cfg.tickUs.toNat)

end Sys2Proof.Machine
end

