-- ==== Sys2Proof/Machine/Operands.lean ====
section
/-!
DEFINITION. What the operand fields of a command name (30_encoding.md R82, R83, R86 (d)).
-/

namespace Sys2Proof.Machine

/-- The sink operand of SC.REGISTER: 1 is the speed task, 2 the direction task, 0 and 3 are illegal (R86 (d), R104). -/
def registerSinkOperand (sink : BitVec 2) : Option Sink :=
  match sink.toNat with
  | 1 => some .speed
  | 2 => some .direction
  | _ => none

/-- The sink operand of SC.UNREGISTER: 0, 1 or 2, and 3 is illegal (R86 (d), R105). -/
def unregisterSinkOperand (sink : BitVec 2) : Option Sink :=
  match sink.toNat with
  | 0 => some .none
  | 1 => some .speed
  | 2 => some .direction
  | _ => none

/-- The task operand of TASK.START, TASK.STOP and TASK.FINISHED: 1, 2 or 3, and 0 is illegal (R86 (d)). -/
def taskOperand (task : BitVec 2) : Option TaskId :=
  match task.toNat with
  | 1 => some .speed
  | 2 => some .direction
  | 3 => some .edge
  | _ => none

/-- The b operand of WI.START_SAMPLE: 0 names the emulator, 1 the host (43_instrument.md R192). -/
def callbackOperand (b : Bool) : CallbackTarget :=
  if b then .host else .emulator

/-- v as it is added to a 16-bit sum (R83): `zext_16(v)`. -/
def sampleAddend (v : Byte) : Word := v.setWidth 16

/-- One bit as a 16-bit word. -/
def bitWord (b : Bool) : Word := if b then 1 else 0

/-- An 8-bit result, zero-extended to the response word (R84). -/
def byteWord (v : Byte) : Word := v.setWidth 16

end Sys2Proof.Machine
end

