-- ==== Sys2Proof/Machine/Ops.lean ====
section
/-!
DEFINITION. The shared operations: answering a command, recording a fault, entering and leaving an interrupt
handler, and each rule that another rule calls ("Call OP", 00_scope.md R13) as an operation on the state that
never writes RESP.
-/

namespace Sys2Proof.Machine

/-! ## The port and its faults -/

/-- `Resp(v)` (00_scope.md R13, 30_encoding.md R84). -/
def respond (v : Word) (s : State) : State := { s with resp := v }

/-- The two fault codes (60_exceptions.md R261). -/
inductive FaultCode where
  /-- bit 0 -/
  | illegalCmd
  /-- bit 1 -/
  | avgNotDone
deriving DecidableEq, Repr

/-- A fault code's bit of `fault` (60_exceptions.md R261). -/
def faultBit : FaultCode → BitVec 2
  | .illegalCmd => 0b01
  | .avgNotDone => 0b10

/-- `raise Fault(code, w)` (60_exceptions.md R260, R262): the first faulting word is kept, the sticky bit is set, the
answer is 0xFFFF, and nothing else changes. -/
def raiseFault (code : FaultCode) (w : Word) (s : State) : State :=
  { s with
    faults := { fault := s.faults.fault ||| faultBit code
                faultCmd := if s.faults.fault = 0 then w else s.faults.faultCmd }
    resp := 0xFFFF }

/-- Entry of an interrupt handler (60_exceptions.md R267). Nothing is saved and `ie` is not changed. -/
def enterInterrupt (s : State) : State := { s with irq := { s.irq with inIsr := true } }

/-- Return from an interrupt handler (60_exceptions.md R267, R268). `ie` is not changed. -/
def returnFromInterrupt (s : State) : State := { s with irq := { s.irq with inIsr := false } }

/-! ## Arithmetic -/

/-- `round_half_up(p / q)` (00_scope.md R15). -/
def roundHalfUp (p q : Nat) : Nat := (2 * p + q) / (2 * q)

/-- The direction 0..15 of a raw direction; the sum is wider than 16 bits (43_instrument.md R200). -/
def directionOf (raw : Word) : BitVec 4 := BitVec.ofNat 4 ((raw.toNat + 31) >>> 6)

/-- The speed in hundredths of a mile per hour (43_instrument.md R199). -/
def mphHundredths (pc : Byte) (periodMs : Word) : Word :=
  BitVec.ofNat 16 (roundHalfUp (pc.toNat * 225000) periodMs.toNat)

/-- The frame's speed field, in units of 0.1 m/s, from the exact rational (43_instrument.md R203). -/
def speedUnits (pc : Byte) (periodMs : Word) : BitVec 12 :=
  BitVec.ofNat 12 ((2 * 50292 * pc.toNat + 5 * periodMs.toNat) / (10 * periodMs.toNat))

/-! ## Sample clock and ADC -/

/-- 40_sampleclock.md R100. -/
def adcSelect (ch : Channel) (s : State) : State := { s with sc := { s.sc with curCh := ch } }

/-- 40_sampleclock.md R101. -/
def adcStart (s : State) : State :=
  { s with adc := { s.adc with busy := true, remain := s.cfg.adcConvUs, convCh := s.sc.curCh } }

/-- The value ADC.READY returns: `1 - adc_busy` (40_sampleclock.md R102). -/
def adcReady (s : State) : Bool := !s.adc.busy

/-- The value ADC.READ returns (40_sampleclock.md R103). -/
def adcRead (s : State) : Byte := s.adc.result

/-- 40_sampleclock.md R104. -/
def scRegister (sink : Sink) (ch : Channel) (s : State) : State :=
  { s with sc := { s.sc with sink := sink, desCh := ch, settle := s.cfg.settleK } }

/-- 40_sampleclock.md R105: compare-and-clear, keyed by identity. -/
def scUnregister (sink : Sink) (s : State) : State :=
  if s.sc.sink = sink then { s with sc := { s.sc with sink := .none } } else s

/-! ## Filters -/

/-- 41_filters.md R130. -/
def maClear (s : State) : State :=
  { s with ma := { buf := List.replicate s.cfg.maWidth.toNat 0, sum := 0, idx := 0, fill := 0 } }

/-- 41_filters.md R131. -/
def maPush (v : Byte) (s : State) : State :=
  let w := s.cfg.maWidth.toNat
  let old := s.ma.buf.getD s.ma.idx.toNat 0
  { s with
    ma := { buf := s.ma.buf.set s.ma.idx.toNat v
            sum := s.ma.sum - sampleAddend old + sampleAddend v
            idx := BitVec.ofNat 8 ((s.ma.idx.toNat + 1) % w)
            fill := BitVec.ofNat 8 (min (s.ma.fill.toNat + 1) w) } }

/-- `average()`: the divisor is always W (41_filters.md R133). -/
def maAverage (s : State) : Word := BitVec.ofNat 16 (s.ma.sum.toNat / s.cfg.maWidth.toNat)

/-- 41_filters.md R140. -/
def pdClear (s : State) : State :=
  { maClear s with pd := { deb := 0, asserted := false, fired := false } }

/-- The debounce counter after step 1 of 41_filters.md R141. -/
def debounceDecrement (deb : Byte) : Byte := if deb = 0 then 0 else deb - 1

/-- 41_filters.md R141: the four steps; a fire counts a pulse of task 1. The outcome is in `pd.asserted` and
`pd.fired`. -/
def pdProcess (v : Byte) (s : State) : State :=
  let deb := debounceDecrement s.pd.deb
  let s' := maPush (lowBit s.cfg v) s
  let asserted := pulseAsserted s.cfg s'.ma.sum
  let fired := pulseFired asserted deb
  { s' with
    pd := { deb := if fired then s.cfg.pdDebounce else deb, asserted := asserted, fired := fired }
    tasks := { s.tasks with t1Pulses := if fired then s.tasks.t1Pulses + 1 else s.tasks.t1Pulses } }

/-- The response of PD.PROCESS: RESP[1] is `pd_asserted`, RESP[0] is `pd_fired` (41_filters.md R141). -/
def pdResponse (s : State) : Word := 0#14 ++ BitVec.ofBool s.pd.asserted ++ BitVec.ofBool s.pd.fired

/-- 41_filters.md R150. -/
def avgClear (s : State) : State := { s with avg := { sum := 0, count := 0, done := false } }

/-- 41_filters.md R151. -/
def avgProcess (v : Byte) (s : State) : State :=
  if s.avg.done then s
  else
    let count := s.avg.count + 1
    { s with avg := { sum := s.avg.sum + sampleAddend v, count := count, done := averageDone s.cfg count } }

/-- `floor(avg_sum / avg_count)`, where `avg_count` is not 0 (41_filters.md R152, 43_instrument.md R196). -/
def avgQuotient (a : Averager) : Word := BitVec.ofNat 16 (a.sum.toNat / a.count.toNat)

/-- 41_filters.md R160. -/
def cntClear (s : State) : State := { s with cntCount := 0 }

/-- 41_filters.md R161: the sample's value is ignored. -/
def cntProcess (_v : Byte) (s : State) : State := { s with cntCount := s.cntCount + 1 }

/-! ## Tasks -/

/-- The flags of a task slot. -/
def taskFlags (t : TaskId) (s : State) : TaskFlags :=
  match t with
  | .speed => s.tasks.t1
  | .direction => s.tasks.t2
  | .edge => s.tasks.t3

/-- `s` with the flags of one task slot replaced. -/
def setTaskFlags (t : TaskId) (f : TaskFlags) (s : State) : State :=
  match t with
  | .speed => { s with tasks := { s.tasks with t1 := f } }
  | .direction => { s with tasks := { s.tasks with t2 := f } }
  | .edge => { s with tasks := { s.tasks with t3 := f } }

/-- 42_tasks.md R170. -/
def taskStart (t : TaskId) (s : State) : State :=
  let running : TaskFlags := { started := true, finished := false }
  match t with
  | .speed =>
    let s' := pdClear s
    scRegister .speed s.cfg.speedCh
      { s' with tasks := { s'.tasks with t1 := running, t1Pulses := 0, t1StartMs := s.time.timeMs } }
  | .direction =>
    let s' := avgClear s
    scRegister .direction s.cfg.dirCh { s' with tasks := { s'.tasks with t2 := running } }
  | .edge =>
    let s' := cntClear s
    { s' with
      tasks := { s'.tasks with t3 := running, t3StartMs := s.time.timeMs }
      irq := { s'.irq with edgePending := false } }

/-- 42_tasks.md R172: `t_finished` and the counts are kept; task 3 is never a sink. -/
def taskStop (t : TaskId) (s : State) : State :=
  let s' := setTaskFlags t { taskFlags t s with started := false } s
  match t with
  | .speed => scUnregister .speed s'
  | .direction => scUnregister .direction s'
  | .edge => s'

/-- 42_tasks.md R175. -/
def taskService1 (v : Byte) (s : State) : State :=
  if acceptsSample s.tasks.t1 then pdProcess v s else s

/-- 42_tasks.md R176. -/
def taskService2 (v : Byte) (s : State) : State :=
  if acceptsSample s.tasks.t2 then
    let s' := avgProcess v s
    if s'.avg.done then { s' with tasks := { s'.tasks with t2 := { s'.tasks.t2 with finished := true } } } else s'
  else s

/-- 42_tasks.md R177. -/
def taskService3 (v : Byte) (s : State) : State :=
  if acceptsSample s.tasks.t3 then cntProcess v s else s

/-! ## Emulator -/

/-- A change of `emu_state` with the output levels of its row (44_emulator.md R221). -/
def emuEnter (e : EmuState) (s : State) : State :=
  match e with
  | .disabled => { s with emu := { s.emu with state := e, txd := true, ind := false } }
  | .startSample | .sampling | .sending =>
    { s with emu := { s.emu with state := e, txd := s.cfg.txdBusy, ind := true } }

/-- 44_emulator.md R226: unconditional. -/
def emuOnComplete (s : State) : State := emuEnter .sending s

/-- The checksum nibble of a frame (44_emulator.md R227, R229). -/
def frameChecksum (dir : BitVec 4) (u : BitVec 12) : BitVec 4 :=
  dir + u.extractLsb' 0 4 + u.extractLsb' 4 4 + u.extractLsb' 8 4

/-- The 42 line levels of a frame, bit i the level of symbol i (44_emulator.md R227): from the top, the stop bit, the
inverted data of symbols 40..5 (each field LSB first, so bit 0 of a field at its lowest symbol), and the header
`0,0,1,0,0`, which is transmitted literally. -/
def frameLevels (dir : BitVec 4) (u : BitVec 12) : BitVec 42 :=
  let data : BitVec 36 := ~~~u ++ ~~~dir ++ frameChecksum dir u ++ u ++ dir
  1#1 ++ ~~~data ++ 0b00100#5

/-- 44_emulator.md R227. -/
def emuBuildFrame (s : State) : State :=
  { s with emu := { s.emu with frame := frameLevels (directionOf s.wi.lastDirRaw) (speedUnits s.wi.lastPc s.cfg.speedPeriodMs) } }

/-- 44_emulator.md R231. -/
def emuWriteBit (b : Bool) (s : State) : State := { s with emu := { s.emu with txd := b } }

/-- 44_emulator.md R225: the first atomic end of the long operation. -/
def emuBeginFrame (s : State) : State :=
  let s' := emuBuildFrame s
  let s'' : State := { s' with emu := { s'.emu with t0 := s.time.timeUs, bitIdx := 0, writing := true } }
  emuWriteBit (s''.emu.frame.getLsbD 0) s''

/-- 44_emulator.md R233: the second atomic end, which answers the EMU.SERVICE command. -/
def emuFrameCompletion (s : State) : State :=
  respond 0 (emuEnter (if s.pins.dtr then .disabled else .startSample) s)

/-! ## Reading sequencer -/

/-- The sequencer's speed task S (43_instrument.md, introduction). -/
def speedTask (p : Params) : TaskId :=
  match p.speedSrc with
  | .pulseDetector => .speed
  | .edgeCounter => .edge

/-- The condition under which WI.START_SAMPLE is accepted (43_instrument.md R192). -/
def wiAccepts (s : State) : Bool := s.wi.init && s.wi.state == .idle

/-- 43_instrument.md R192. The returned r is `wiAccepts` of the state before. -/
def wiStartSample (target : CallbackTarget) (s : State) : State :=
  if wiAccepts s then { s with wi := { s.wi with cbValid := true, cbTarget := target, state := .newSample } } else s

/-- 43_instrument.md R193: a no-op at IDLE. -/
def wiAbort (s : State) : State :=
  if s.wi.state = .idle then s
  else
    let s' := taskStop .edge (taskStop .direction (taskStop .speed s))
    { s' with wi := { s'.wi with cbValid := false, cbTarget := .emulator, pcap := 0, dcap := 0, state := .idle } }

/-- WI.SERVICE in NEW_SAMPLE (43_instrument.md R194). -/
def wiServiceNewSample (s : State) : State :=
  let s' := taskStart (speedTask s.cfg) s
  { s' with wi := { s'.wi with state := .samplingSpeed } }

/-- The count WI captures: `t1_pulses` or `cnt_count` (43_instrument.md R195). -/
def speedCount (s : State) : Byte :=
  match s.cfg.speedSrc with
  | .pulseDetector => s.tasks.t1Pulses
  | .edgeCounter => s.cntCount

/-- WI.SERVICE in SAMPLING_SPEED (43_instrument.md R195). -/
def wiServiceSamplingSpeed (s : State) : State :=
  if (taskFlags (speedTask s.cfg) s).finished then
    let s' := taskStart .direction (taskStop (speedTask s.cfg) s)
    { s' with wi := { s'.wi with pcap := speedCount s, state := .samplingDirection } }
  else s

/-- `wi_dcap` from an average: `(a << P_DIR_SHIFT) mod 2^16` (43_instrument.md R196). -/
def directionRaw (p : Params) (a : Word) : Word := a <<< p.dirShift.toNat

/-- WI.SERVICE in SAMPLING_DIRECTION (43_instrument.md R196). With `avg_count = 0` the spec states no quotient and
the captured average is a free value (entry 7). -/
def wiServiceSamplingDirection (s : State) : State :=
  if s.tasks.t2.finished then
    let s' := taskStop .direction s
    if s.avg.count = 0 then
      { s' with
        wi := { s'.wi with dcap := directionRaw s.cfg (Config.emptyAverage s.free), state := .sendFrame }
        free := s.free + 1 }
    else
      { s' with wi := { s'.wi with dcap := directionRaw s.cfg (avgQuotient s.avg), state := .sendFrame } }
  else s

/-- WI.SERVICE in SEND_FRAME (43_instrument.md R197): commit, clear the callback, go idle, then invoke. -/
def wiServiceSendFrame (s : State) : State :=
  let s' : State := { s with
    wi := { s.wi with
      lastPc := s.wi.pcap, lastDirRaw := s.wi.dcap, cbValid := false, cbTarget := .emulator, state := .idle } }
  match s.wi.cbTarget with
  | .emulator => emuOnComplete s'
  | .host => { s' with wi := { s'.wi with hostDone := true } }

/-- 43_instrument.md R194: at most one transition. -/
def wiService (s : State) : State :=
  match s.wi.state with
  | .idle => s
  | .newSample => wiServiceNewSample s
  | .samplingSpeed => wiServiceSamplingSpeed s
  | .samplingDirection => wiServiceSamplingDirection s
  | .sendFrame => wiServiceSendFrame s

/-! ## Interrupt handlers -/

/-- Step 6 of 40_sampleclock.md R110: deliver a sample to the current sink, if any. -/
def deliverSample (v : Byte) (s : State) : State :=
  match s.sc.sink with
  | .none => s
  | .speed => taskService1 v s
  | .direction => taskService2 v s

/-- Steps 4 and 4e of 40_sampleclock.md R110: reprogram the multiplexer when the desired channel differs. -/
def reprogramMux (s : State) : State :=
  if s.sc.desCh = s.sc.curCh then s else adcSelect s.sc.desCh s

/-- Step 1 of 40_sampleclock.md R110 on a stale tick: `stale_cnt` saturates at 0xFFFF. -/
def countStale (s : State) : State :=
  { s with sc := { s.sc with staleCnt := BitVec.ofNat 16 (min (s.sc.staleCnt.toNat + 1) 0xFFFF) } }

/-- Step 0 of 40_sampleclock.md R110. -/
def clearTickPending (s : State) : State := { s with irq := { s.irq with tickPending := false } }

/-- The tick handler (40_sampleclock.md R110). -/
def tickHandler (s : State) : State :=
  let s0 := clearTickPending s
  if !adcReady s0 then countStale s0
  else
    let s1 := if s0.cfg.muxSwitch = .early then reprogramMux s0 else s0
    if s1.sc.settle ≠ 0 then
      adcStart { s1 with sc := { s1.sc with settle := s1.sc.settle - 1 } }
    else
      let v := adcRead s1
      deliverSample v (adcStart (reprogramMux s1))

/-- The edge handler (42_tasks.md R178): the synthetic sample 255 goes to task 3. -/
def edgeHandler (s : State) : State :=
  taskService3 255 { s with irq := { s.irq with edgePending := false } }

end Sys2Proof.Machine
end

