-- ==== Sys2Proof/Machine/Clock.lean ====
section
/-!
DEFINITION. The sample clock's commands and the ADC micro-operations (40_sampleclock.md R100 to R105).
-/

namespace Sys2Proof.Machine

/-- SC.REGISTER sink, ch (R104); an illegal sink raises ILLEGAL_CMD (30_encoding.md R86 (d)). -/
def execScRegister (sink : BitVec 2) (ch : Channel) (s : State) : Result :=
  match registerSinkOperand sink with
  | some k => .next (respond 0 (scRegister k ch s))
  | none => .next (raiseFault .illegalCmd (encode (.scRegister sink ch)) s)

/-- SC.UNREGISTER sink (R105); an illegal sink raises ILLEGAL_CMD (R86 (d)). -/
def execScUnregister (sink : BitVec 2) (s : State) : Result :=
  match unregisterSinkOperand sink with
  | some k => .next (respond 0 (scUnregister k s))
  | none => .next (raiseFault .illegalCmd (encode (.scUnregister sink)) s)

/-- ADC.SELECT ch (R100), as another rule performs it. -/
def execAdcSelect (ch : Channel) (s : State) : Result := .next (adcSelect ch s)

/-- ADC.START (R101), as another rule performs it. -/
def execAdcStart (s : State) : Result := .next (adcStart s)

/-- ADC.READY (R102): it writes nothing, and returns `adcReady s` to the rule that calls it (entry 9). -/
def execAdcReady (s : State) : Result := .next s

/-- ADC.READ (R103): it writes nothing, and returns `adcRead s` to the rule that calls it (entry 9). -/
def execAdcRead (s : State) : Result := .next s

end Sys2Proof.Machine
end

