-- ==== Sys2Proof/Machine/Emulation.lean ====
section
/-!
DEFINITION. The protocol emulator's operations (44_emulator.md R222 to R231).
-/

namespace Sys2Proof.Machine

/-- EMU.SERVICE in DISABLED (R222): DTR low is active. -/
def emuServiceDisabled (s : State) : State :=
  respond 0 (if s.pins.dtr then s else emuEnter .startSample s)

/-- EMU.SERVICE in START_SAMPLE (R223): the answer of WI.START_SAMPLE is ignored. -/
def emuServiceStartSample (s : State) : State :=
  respond 0 (emuEnter .sampling (wiStartSample .emulator s))

/-- EMU.SERVICE in SAMPLING (R224). -/
def emuServiceSampling (s : State) : State :=
  respond 0 (if s.pins.dtr then emuEnter .disabled (wiAbort s) else s)

/-- EMU.SERVICE (R222 to R225). In SENDING it begins the long operation, and RESP is written at the frame's
completion (R233); with a frame already on the wire R225 says the case cannot arise (entry 12). -/
def execEmuService (s : State) : Result :=
  match s.emu.state with
  | .disabled => .next (emuServiceDisabled s)
  | .startSample => .next (emuServiceStartSample s)
  | .sampling => .next (emuServiceSampling s)
  | .sending => if s.emu.writing then .fault .serviceWhileWriting else .next (emuBeginFrame s)

/-- EMU.ON_COMPLETE (R226), as another rule performs it. -/
def execEmuOnComplete (s : State) : Result := .next (emuOnComplete s)

/-- EMU.BUILD_FRAME (R227), as another rule performs it. -/
def execEmuBuildFrame (s : State) : Result := .next (emuBuildFrame s)

/-- EMU.WRITE_BIT b (R231), as another rule performs it. -/
def execEmuWriteBit (b : Bool) (s : State) : Result := .next (emuWriteBit b s)

end Sys2Proof.Machine
end

