-- ==== Sys2Proof/Machine/Events.lean ====
section
/-!
DEFINITION. The interrupt handlers (40_sampleclock.md R110, 42_tasks.md R178) as the interrupt agent performs them.
-/

namespace Sys2Proof.Machine

/-- EV.TICK (R110). -/
def execEvTick (s : State) : Result := .next (tickHandler s)

/-- EV.EDGE (R178). -/
def execEvEdge (s : State) : Result := .next (edgeHandler s)

end Sys2Proof.Machine
end

