-- ==== Sys2Proof/Machine/Filters.lean ====
section
/-!
DEFINITION. The filter commands (41_filters.md): moving average, pulse detector, averager, sample counter.
-/

namespace Sys2Proof.Machine

/-- MA.CLEAR (R130). -/
def execMaClear (s : State) : Result := .next (respond 0 (maClear s))

/-- MA.PUSH v (R131). -/
def execMaPush (v : Byte) (s : State) : Result := .next (respond 0 (maPush v s))

/-- MA.SUM (R132). -/
def execMaSum (s : State) : Result := .next (respond s.ma.sum s)

/-- MA.AVERAGE (R133). -/
def execMaAverage (s : State) : Result := .next (respond (maAverage s) s)

/-- PD.CLEAR (R140). -/
def execPdClear (s : State) : Result := .next (respond 0 (pdClear s))

/-- PD.PROCESS v (R141). -/
def execPdProcess (v : Byte) (s : State) : Result :=
  let s' := pdProcess v s
  .next (respond (pdResponse s') s')

/-- AVG.CLEAR (R150). -/
def execAvgClear (s : State) : Result := .next (respond 0 (avgClear s))

/-- AVG.PROCESS v (R151). -/
def execAvgProcess (v : Byte) (s : State) : Result := .next (respond 0 (avgProcess v s))

/-- AVG.VALUE (R152): before the averager is done it raises AVG_NOT_DONE (60_exceptions.md R264). -/
def execAvgValue (s : State) : Result :=
  if s.avg.done then .next (respond (avgQuotient s.avg) s)
  else .next (raiseFault .avgNotDone (encode .avgValue) s)

/-- AVG.DONE (R153). -/
def execAvgDone (s : State) : Result := .next (respond (bitWord s.avg.done) s)

/-- CNT.CLEAR (R160). -/
def execCntClear (s : State) : Result := .next (respond 0 (cntClear s))

/-- CNT.PROCESS v (R161). -/
def execCntProcess (v : Byte) (s : State) : Result := .next (respond 0 (cntProcess v s))

/-- CNT.COUNT (R162). -/
def execCntCount (s : State) : Result := .next (respond (byteWord s.cntCount) s)

end Sys2Proof.Machine
end

