-- ==== Sys2Proof/Machine/Sequencer.lean ====
section
/-!
DEFINITION. The reading sequencer's commands (43_instrument.md R190 to R201).
-/

namespace Sys2Proof.Machine

/-- WI.INIT (R190). -/
def execWiInit (s : State) : Result := .next (respond 0 { s with wi := { s.wi with init := true } })

/-- WI.START_SAMPLE b (R192): the answer says whether the call was accepted. -/
def execWiStartSample (b : Bool) (s : State) : Result :=
  .next (respond (bitWord (wiAccepts s)) (wiStartSample (callbackOperand b) s))

/-- WI.ABORT (R193). -/
def execWiAbort (s : State) : Result := .next (respond 0 (wiAbort s))

/-- WI.SERVICE (R194 to R197). -/
def execWiService (s : State) : Result := .next (respond 0 (wiService s))

/-- WI.GET_MPH (R199). -/
def execWiGetMph (s : State) : Result := .next (respond (mphHundredths s.wi.lastPc s.cfg.speedPeriodMs) s)

/-- WI.GET_DIR (R200). -/
def execWiGetDir (s : State) : Result := .next (respond ((directionOf s.wi.lastDirRaw).setWidth 16) s)

/-- WI.ACK (R201). -/
def execWiAck (s : State) : Result := .next (respond 0 { s with wi := { s.wi with hostDone := false } })

end Sys2Proof.Machine
end

