-- ==== Sys2Proof/Machine/Csr.lean ====
section
/-!
DEFINITION. The CSR space (10_state.md R48 to R52, 20_memory.md R60 to R63): the one read of the block's one address
space. Every word is a view of state elements, and no word is writable.
-/

namespace Sys2Proof.Machine

/-- `sc_sink` (10_state.md R31). -/
def sinkCode : Sink → BitVec 2
  | .none => 0
  | .speed => 1
  | .direction => 2

/-- `wi_state` (10_state.md R40). -/
def wiStateCode : WiState → BitVec 3
  | .idle => 0
  | .newSample => 1
  | .samplingSpeed => 2
  | .samplingDirection => 3
  | .sendFrame => 4

/-- `wi_cb_target` (10_state.md R41). -/
def callbackCode : CallbackTarget → BitVec 1
  | .emulator => 0
  | .host => 1

/-- `emu_state` (10_state.md R44). -/
def emuStateCode : EmuState → BitVec 2
  | .disabled => 0
  | .startSample => 1
  | .sampling => 2
  | .sending => 3

/-- P_SPEED_SRC (00_scope.md R9). -/
def speedSourceCode : SpeedSource → BitVec 1
  | .pulseDetector => 0
  | .edgeCounter => 1

/-- P_MUX_SWITCH (00_scope.md R9). -/
def muxSwitchCode : MuxSwitch → BitVec 1
  | .literal => 0
  | .early => 1

/-- SC_STATUS, 0x00 (10_state.md R49). -/
def csrScStatus (s : State) : Word :=
  0#1 ++ BitVec.ofBool s.irq.ie ++ BitVec.ofBool s.irq.edgePending ++ BitVec.ofBool s.irq.tickPending ++
    s.adc.convCh ++ BitVec.ofBool s.adc.busy ++ s.sc.curCh ++ s.sc.desCh ++ sinkCode s.sc.sink

/-- PD_STATUS, 0x06 (R49). -/
def csrPdStatus (s : State) : Word :=
  0#6 ++ BitVec.ofBool s.pd.fired ++ BitVec.ofBool s.pd.asserted ++ s.pd.deb

/-- AVG_STATUS, 0x08 (R49). -/
def csrAvgStatus (s : State) : Word := 0#7 ++ BitVec.ofBool s.avg.done ++ s.avg.count

/-- TASK_STATUS, 0x0A (R50): bit 2(t-1) is `t_started[t]`, bit 2(t-1)+1 is `t_finished[t]` (R38). -/
def csrTaskStatus (s : State) : Word :=
  0#10 ++ BitVec.ofBool s.tasks.t3.finished ++ BitVec.ofBool s.tasks.t3.started ++
    BitVec.ofBool s.tasks.t2.finished ++ BitVec.ofBool s.tasks.t2.started ++
    BitVec.ofBool s.tasks.t1.finished ++ BitVec.ofBool s.tasks.t1.started

/-- WI_STATUS, 0x10 (R50). -/
def csrWiStatus (s : State) : Word :=
  0#9 ++ BitVec.ofBool s.wi.hostDone ++ callbackCode s.wi.cbTarget ++ BitVec.ofBool s.wi.cbValid ++
    BitVec.ofBool s.wi.init ++ wiStateCode s.wi.state

/-- EMU_STATUS, 0x18 (R51): bit 4 is the DTR pin's present level. -/
def csrEmuStatus (s : State) : Word :=
  0#4 ++ s.emu.bitIdx ++ BitVec.ofBool s.emu.writing ++ BitVec.ofBool s.pins.dtr ++
    BitVec.ofBool s.emu.ind ++ BitVec.ofBool s.emu.txd ++ emuStateCode s.emu.state

/-- P_CH, 0x3A (R52). -/
def csrChannels (p : Params) : Word := 0#10 ++ p.dirCh ++ p.speedCh

/-- P_MODE, 0x3B (R52). -/
def csrMode (p : Params) : Word :=
  0#8 ++ p.dirShift ++ 0#1 ++ muxSwitchCode p.muxSwitch ++ BitVec.ofBool p.txdBusy ++ speedSourceCode p.speedSrc

/-- The low word of a 32-bit element, at the lower address (20_memory.md R63). -/
def lowWord (v : BitVec 32) : Word := v.extractLsb' 0 16

/-- The high word of a 32-bit element (20_memory.md R63). -/
def highWord (v : BitVec 32) : Word := v.extractLsb' 16 16

/-- `CsrRead(a)` (10_state.md R48 to R52): the word of a listed address, and 0 for a reserved one. -/
def csrRead (s : State) (a : Byte) : Word :=
  match a.toNat with
  | 0x00 => csrScStatus s
  | 0x01 => byteWord s.sc.settle
  | 0x02 => s.sc.staleCnt
  | 0x03 => byteWord s.adc.result
  | 0x04 => s.ma.sum
  | 0x05 => s.ma.fill ++ s.ma.idx
  | 0x06 => csrPdStatus s
  | 0x07 => s.avg.sum
  | 0x08 => csrAvgStatus s
  | 0x09 => byteWord s.cntCount
  | 0x0A => csrTaskStatus s
  | 0x0B => byteWord s.tasks.t1Pulses
  | 0x0C => lowWord s.tasks.t1StartMs
  | 0x0D => highWord s.tasks.t1StartMs
  | 0x0E => lowWord s.tasks.t3StartMs
  | 0x0F => highWord s.tasks.t3StartMs
  | 0x10 => csrWiStatus s
  | 0x11 => byteWord s.wi.pcap
  | 0x12 => s.wi.dcap
  | 0x13 => byteWord s.wi.lastPc
  | 0x14 => s.wi.lastDirRaw
  | 0x18 => csrEmuStatus s
  | 0x19 => s.emu.frame.extractLsb' 0 16
  | 0x1A => s.emu.frame.extractLsb' 16 16
  | 0x1B => 0#6 ++ s.emu.frame.extractLsb' 32 10
  | 0x1C => lowWord s.time.timeUs
  | 0x1D => highWord s.time.timeUs
  | 0x1E => lowWord s.time.timeMs
  | 0x1F => highWord s.time.timeMs
  | 0x20 => s.faults.fault.setWidth 16
  | 0x21 => 0#14 ++ BitVec.ofBool s.irq.edgeOvr ++ BitVec.ofBool s.irq.tickOvr
  | 0x22 => s.faults.faultCmd
  | 0x30 => byteWord s.cfg.settleK
  | 0x31 => s.cfg.tickUs
  | 0x32 => s.cfg.adcConvUs
  | 0x33 => byteWord s.cfg.maWidth
  | 0x34 => byteWord s.cfg.pdLow
  | 0x35 => byteWord s.cfg.pdThresh
  | 0x36 => byteWord s.cfg.pdDebounce
  | 0x37 => byteWord s.cfg.avgN
  | 0x38 => s.cfg.speedPeriodMs
  | 0x39 => s.cfg.bitUs
  | 0x3A => csrChannels s.cfg
  | 0x3B => csrMode s.cfg
  | 0x3C => byteWord s.cfg.maWmax
  | _ => 0

end Sys2Proof.Machine
end

