-- ==== Sys2Proof/Machine/System.lean ====
section
/-!
DEFINITION. The system commands (45_system.md): SYS.NOP, SYS.CLI, SYS.SEI, CSR.READ.
-/

namespace Sys2Proof.Machine

/-- SYS.NOP (R250). -/
def execSysNop (s : State) : Result := .next (respond 0 s)

/-- SYS.CLI (R251): no nesting count. -/
def execSysCli (s : State) : Result := .next (respond 0 { s with irq := { s.irq with ie := false } })

/-- SYS.SEI (R252). -/
def execSysSei (s : State) : Result := .next (respond 0 { s with irq := { s.irq with ie := true } })

/-- CSR.READ a (R253): every address is legal. -/
def execCsrRead (a : Byte) (s : State) : Result := .next (respond (csrRead s a) s)

end Sys2Proof.Machine
end

