-- ==== Sys2Proof/Machine/Tasking.lean ====
section
/-!
DEFINITION. The task commands (42_tasks.md R170 to R177).
-/

namespace Sys2Proof.Machine

/-- TASK.START t (R170); task 0 raises ILLEGAL_CMD (30_encoding.md R86 (d)). -/
def execTaskStart (task : BitVec 2) (s : State) : Result :=
  match taskOperand task with
  | some t => .next (respond 0 (taskStart t s))
  | none => .next (raiseFault .illegalCmd (encode (.taskStart task)) s)

/-- TASK.STOP t (R172); task 0 raises ILLEGAL_CMD (R86 (d)). -/
def execTaskStop (task : BitVec 2) (s : State) : Result :=
  match taskOperand task with
  | some t => .next (respond 0 (taskStop t s))
  | none => .next (raiseFault .illegalCmd (encode (.taskStop task)) s)

/-- TASK.FINISHED t (R173); task 0 raises ILLEGAL_CMD (R86 (d)). -/
def execTaskFinished (task : BitVec 2) (s : State) : Result :=
  match taskOperand task with
  | some t => .next (respond (bitWord (taskFlags t s).finished) s)
  | none => .next (raiseFault .illegalCmd (encode (.taskFinished task)) s)

/-- TASK.SERVICE1 v (R175). -/
def execTaskService1 (v : Byte) (s : State) : Result := .next (respond 0 (taskService1 v s))

/-- TASK.SERVICE2 v (R176). -/
def execTaskService2 (v : Byte) (s : State) : Result := .next (respond 0 (taskService2 v s))

/-- TASK.SERVICE3 v (R177). -/
def execTaskService3 (v : Byte) (s : State) : Result := .next (respond 0 (taskService3 v s))

end Sys2Proof.Machine
end

