-- ==== Sys2Proof/Machine/Dispatch.lean ====
section
/-! DEFINITION. One arm per operation of 30_encoding.md R85. -/

namespace Sys2Proof.Machine

def exec (i : Instr) (s : State) : Host.Outcome State Fault Refusal :=
  match i with
  | .sysNop => Sys2Proof.Machine.execSysNop s
  | .sysCli => Sys2Proof.Machine.execSysCli s
  | .sysSei => Sys2Proof.Machine.execSysSei s
  | .scRegister sink ch => Sys2Proof.Machine.execScRegister sink ch s
  | .scUnregister sink => Sys2Proof.Machine.execScUnregister sink s
  | .adcSelect ch => Sys2Proof.Machine.execAdcSelect ch s
  | .adcStart => Sys2Proof.Machine.execAdcStart s
  | .adcReady => Sys2Proof.Machine.execAdcReady s
  | .adcRead => Sys2Proof.Machine.execAdcRead s
  | .maClear => Sys2Proof.Machine.execMaClear s
  | .maPush v => Sys2Proof.Machine.execMaPush v s
  | .maSum => Sys2Proof.Machine.execMaSum s
  | .maAverage => Sys2Proof.Machine.execMaAverage s
  | .pdClear => Sys2Proof.Machine.execPdClear s
  | .pdProcess v => Sys2Proof.Machine.execPdProcess v s
  | .avgClear => Sys2Proof.Machine.execAvgClear s
  | .avgProcess v => Sys2Proof.Machine.execAvgProcess v s
  | .avgValue => Sys2Proof.Machine.execAvgValue s
  | .avgDone => Sys2Proof.Machine.execAvgDone s
  | .cntClear => Sys2Proof.Machine.execCntClear s
  | .cntProcess v => Sys2Proof.Machine.execCntProcess v s
  | .cntCount => Sys2Proof.Machine.execCntCount s
  | .taskStart task => Sys2Proof.Machine.execTaskStart task s
  | .taskStop task => Sys2Proof.Machine.execTaskStop task s
  | .taskFinished task => Sys2Proof.Machine.execTaskFinished task s
  | .taskService1 v => Sys2Proof.Machine.execTaskService1 v s
  | .taskService2 v => Sys2Proof.Machine.execTaskService2 v s
  | .taskService3 v => Sys2Proof.Machine.execTaskService3 v s
  | .wiInit => Sys2Proof.Machine.execWiInit s
  | .wiStartSample b => Sys2Proof.Machine.execWiStartSample b s
  | .wiAbort => Sys2Proof.Machine.execWiAbort s
  | .wiService => Sys2Proof.Machine.execWiService s
  | .wiGetMph => Sys2Proof.Machine.execWiGetMph s
  | .wiGetDir => Sys2Proof.Machine.execWiGetDir s
  | .wiAck => Sys2Proof.Machine.execWiAck s
  | .emuService => Sys2Proof.Machine.execEmuService s
  | .emuOnComplete => Sys2Proof.Machine.execEmuOnComplete s
  | .emuBuildFrame => Sys2Proof.Machine.execEmuBuildFrame s
  | .emuWriteBit b => Sys2Proof.Machine.execEmuWriteBit b s
  | .evTick => Sys2Proof.Machine.execEvTick s
  | .evEdge => Sys2Proof.Machine.execEvEdge s
  | .csrRead a => Sys2Proof.Machine.execCsrRead a s

end Sys2Proof.Machine
end

