-- ==== Sys2Proof/Machine/Timing.lean ====
section
/-!
DEFINITION. The time-base step (20_memory.md R70) and the environment step (R71).
-/

namespace Sys2Proof.Machine

/-- R70 step 1: the microsecond counter, the prescaler and the millisecond counter (10_state.md R22). -/
def advanceClocks (s : State) : State :=
  let presc := s.time.msPresc + 1
  if presc = 1000 then
    { s with time := { s.time with timeUs := s.time.timeUs + 1, msPresc := 0, timeMs := s.time.timeMs + 1 } }
  else
    { s with time := { s.time with timeUs := s.time.timeUs + 1, msPresc := presc } }

/-- R70 step 2: a conversion that ends takes the level of the channel it latched (00_scope.md R19, entry 13). -/
def advanceAdc (s : State) : State :=
  if s.adc.busy then
    let remain := s.adc.remain - 1
    if remain = 0 then
      { s with adc := { s.adc with remain := 0, busy := false, result := s.pins.ain[s.adc.convCh.toFin] } }
    else
      { s with adc := { s.adc with remain := remain } }
  else s

/-- R70 step 3: tasks 1 and 3 finish by time (42_tasks.md R174). -/
def advanceTasks (s : State) : State :=
  { s with
    tasks := { s.tasks with
      t1 := timeDrivenFinish s.cfg s.time.timeMs s.tasks.t1StartMs s.tasks.t1
      t3 := timeDrivenFinish s.cfg s.time.timeMs s.tasks.t3StartMs s.tasks.t3 } }

/-- A request of the tick timer (10_state.md R25): it pends, or is lost with `tick_ovr` set. -/
def requestTick (i : Interrupts) : Interrupts :=
  if i.tickPending then { i with tickOvr := true } else { i with tickPending := true }

/-- R70 step 4: the tick timer (10_state.md R25). -/
def advanceTick (s : State) : State :=
  let cnt := s.time.tickCnt + 1
  if cnt = s.cfg.tickUs then
    { s with time := { s.time with tickCnt := 0 }, irq := requestTick s.irq }
  else
    { s with time := { s.time with tickCnt := cnt } }

/-- The time since the frame's start is the end of the symbol on the wire (44_emulator.md R232). -/
def symbolEnds (s : State) : Bool :=
  (elapsed s.time.timeUs s.emu.t0).toNat == s.cfg.bitUs.toNat * (s.emu.bitIdx.toNat + 1)

/-- R70 step 5: the bit writer (44_emulator.md R232), with the frame's completion in the same step (R233). -/
def advanceBitWriter (s : State) : State :=
  if s.emu.writing && symbolEnds s then
    let idx := s.emu.bitIdx + 1
    if idx.toNat < 42 then
      emuWriteBit (s.emu.frame.getLsbD idx.toNat) { s with emu := { s.emu with bitIdx := idx } }
    else
      emuFrameCompletion { s with emu := { s.emu with bitIdx := idx, writing := false } }
  else s

/-- One time-base step: the five parts of R70, in its order. -/
def timeStep (s : State) : State :=
  advanceBitWriter (advanceTick (advanceTasks (advanceAdc (advanceClocks s))))

/-- A request of the edge source (10_state.md R26): it pends, or is lost with `edge_ovr` set. -/
def requestEdge (i : Interrupts) : Interrupts :=
  if i.edgePending then { i with edgeOvr := true } else { i with edgePending := true }

/-- One environment step (R71): a DTR change has no immediate effect, a fall of PULSE requests the edge interrupt. -/
def envStep (e : EnvStep) (s : State) : State :=
  match e with
  | .dtr level => { s with pins := { s.pins with dtr := level } }
  | .pulse level =>
    { s with
      pins := { s.pins with pulse := level }
      irq := if fallingEdge s.pins.pulse level then requestEdge s.irq else s.irq }
  | .ain ch v => { s with pins := { s.pins with ain := s.pins.ain.set ch.toFin v } }

end Sys2Proof.Machine
end

