-- ==== Sys2Proof/Machine/Agents.lean ====
section
/-!
DEFINITION. What each agent's step does (00_scope.md R6) and which one moves (60_exceptions.md R266): the port's
acceptance of a word (30_encoding.md R86, 60_exceptions.md R263), the interrupt agent, and the dispatch.
-/

namespace Sys2Proof.Machine

/-- One word issued on the port, with the port free. A word that is no row of 30_encoding.md R85 and an internal
operation are illegal (R86 (a), (b), (c), (e)); the operand values of R86 (d) are checked by the operations
themselves. An illegal word raises ILLEGAL_CMD and has no other effect (60_exceptions.md R263). -/
def issueCommand (w : Word) (s : State) : Result :=
  match decode w with
  | .reject _ => .next (raiseFault .illegalCmd w s)
  | .ok i => if i.isInternal then .next (raiseFault .illegalCmd w s) else exec i s

/-- One handler as the interrupt agent runs it: entry, the handler's rule, return, in one step
(60_exceptions.md R267, R268). -/
def runHandler (i : Instr) (s : State) : Result :=
  match exec i (enterInterrupt s) with
  | .next t => .next (returnFromInterrupt t)
  | .fault r => .fault r
  | .refused r => .refused r

/-- The interrupt agent's step while an interrupt is eligible. With both requests pending either handler may run first
(R266): the order is a free value (entry 6). -/
def takeInterrupt (s : State) : Result :=
  if s.irq.tickPending && s.irq.edgePending then
    let s' := { s with free := s.free + 1 }
    if Config.edgeFirst s.free then runHandler .evEdge s' else runHandler .evTick s'
  else if s.irq.tickPending then runHandler .evTick s
  else runHandler .evEdge s

/-- The step of an agent other than the interrupt agent: the next move of the agenda (entry 4). A command waits while
the port is busy, and time passes (44_emulator.md R230, entry 5); with no move to come, time passes. -/
def nextMove (s : State) : Result :=
  match s.agenda with
  | [] => .next (timeStep s)
  | .time :: rest => .next (timeStep { s with agenda := rest })
  | .env e :: rest => .next (envStep e { s with agenda := rest })
  | .command w :: rest =>
    if portBusy s then .next (timeStep s) else issueCommand w { s with agenda := rest }

/-- One atomic step of the block (20_memory.md R67, 60_exceptions.md R266). -/
def blockStep (s : State) : Result :=
  if !legalParams s.cfg then .refused .illegalConfiguration
  else if !encodingReachable s then .fault .unreachableEncoding
  else if interruptEligible s then takeInterrupt s
  else nextMove s

/-- `s` with one word of `nbits` bits as the host's next move (30_encoding.md R80: a command is one 16-bit word). -/
def placeCommand (s : State) (nbits w : Nat) : State :=
  { s with agenda := .command (BitVec.ofNat 16 (w % 2 ^ nbits)) :: s.agenda }

end Sys2Proof.Machine
end

