-- ==== Sys2Proof/Machine/Step.lean ====
section
/-!
DEFINITION. The block's step.
-/

namespace Sys2Proof.Machine

/-- One atomic step of the block: its whole content is `blockStep`. -/
def step (s : State) : Host.Outcome State Fault Refusal := blockStep s

/-- `s` with the instruction of an opcode-table word as the next one the port takes (entry 4). -/
def State.withFetchWord (s : State) (nbits w : Nat) : State := placeCommand s nbits w

end Sys2Proof.Machine
end

