-- ==== Sys2Proof/Safety.lean ====
section
/-!
DEFINITION. The terms claims are stated in: the invariant of the block's states, the output levels of
44_emulator.md R221, and the illegal words of 30_encoding.md R86 read from the opcode map's rows alone.
-/

namespace Sys2Proof.Machine

/-- The ring has W entries, its index and fill are in range, and `ma_sum` is the sum of the entries
(10_state.md R34, R55 (d), 20_memory.md R75). -/
abbrev RingSound (p : Params) (m : MovingAverage) : Prop :=
  m.buf.length = p.maWidth.toNat ∧ m.idx.toNat < p.maWidth.toNat ∧ m.fill.toNat ≤ p.maWidth.toNat ∧
    m.sum.toNat = (m.buf.map BitVec.toNat).sum

/-- `avg_count` samples of at most 255 each are summed, and the averager is done exactly at the P_AVG_N-th
(41_filters.md R150, R151). -/
abbrev AveragerSound (p : Params) (a : Averager) : Prop :=
  a.count.toNat ≤ p.avgN.toNat ∧ (a.done = true ↔ a.count = p.avgN) ∧ a.sum.toNat ≤ 255 * a.count.toNat

/-- The (txd, ind) levels of a state while no frame is on the wire (44_emulator.md R221). -/
def outputLevels (p : Params) : EmuState → Bool × Bool
  | .disabled => (true, false)
  | .startSample => (p.txdBusy, true)
  | .sampling => (p.txdBusy, true)
  | .sending => (p.txdBusy, true)

/-- While a frame is on the wire the state is SENDING, IND is on, TXD is the level of symbol `bitIdx`, and the time is
within that symbol's slot (44_emulator.md R221, R228, R232); otherwise the levels are those of R221's table. -/
abbrev EmulatorSound (s : State) : Prop :=
  s.emu.bitIdx.toNat ≤ 42 ∧
  (s.emu.writing = true →
    s.emu.state = .sending ∧ s.emu.ind = true ∧ s.emu.bitIdx.toNat < 42 ∧
    s.emu.txd = s.emu.frame.getLsbD s.emu.bitIdx.toNat ∧
    s.cfg.bitUs.toNat * s.emu.bitIdx.toNat ≤ (elapsed s.time.timeUs s.emu.t0).toNat ∧
    (elapsed s.time.timeUs s.emu.t0).toNat < s.cfg.bitUs.toNat * (s.emu.bitIdx.toNat + 1)) ∧
  (s.emu.writing = false → (s.emu.txd, s.emu.ind) = outputLevels s.cfg s.emu.state)

/-- What holds of the block between two steps. -/
structure Invariant (s : State) : Prop where
  /-- The configuration is one the spec gives a meaning (00_scope.md R9). -/
  legal : legalParams s.cfg = true
  /-- The prescaler and the tick timer's phase are in range (10_state.md R22, R25). -/
  clocks : s.time.msPresc.toNat < 1000 ∧ s.time.tickCnt.toNat < s.cfg.tickUs.toNat
  /-- `in_isr` is never seen at 1 between steps (10_state.md R27). -/
  noHandler : s.irq.inIsr = false
  /-- The settle countdown never exceeds P_SETTLE_K (10_state.md R33). -/
  settle : s.sc.settle.toNat ≤ s.cfg.settleK.toNat
  /-- A conversion in progress has between 1 and P_ADC_CONV_US microseconds left (40_sampleclock.md R101). -/
  conversion : s.adc.busy = true → 1 ≤ s.adc.remain.toNat ∧ s.adc.remain.toNat ≤ s.cfg.adcConvUs.toNat
  ring : RingSound s.cfg s.ma
  /-- The debounce counter never exceeds P_PD_DEBOUNCE, and a fire implies an assertion (41_filters.md R141). -/
  detector : s.pd.deb.toNat ≤ s.cfg.pdDebounce.toNat ∧ (s.pd.fired = true → s.pd.asserted = true)
  averager : AveragerSound s.cfg s.avg
  /-- A callback is stored exactly while the sequencer is not idle (10_state.md R41, R55 (a)). -/
  callback : s.wi.cbValid = true ↔ s.wi.state ≠ .idle
  emulator : EmulatorSound s

/-- A word is illegal on the port, read from the rows of 30_encoding.md R85 and the five cases of R86. -/
def illegalOnPort (w : Word) : Bool :=
  -- (a), (b), (c): no row of R85 holds of the word
  !(opcodeRows.any fun r => r.holds w) ||
  -- (d): SC.REGISTER with sink 0 or 3, SC.UNREGISTER with sink 3, a task command with task 0
  (w &&& 0xFFE0 == 0x1000 && (w &&& 0x0003 == 0 || w &&& 0x0003 == 3)) ||
  w == 0x1103 || w == 0x7000 || w == 0x7100 || w == 0x7200 ||
  -- (e): an internal operation
  (w &&& 0xF000 == 0x2000) || w == 0x9100 || w == 0x9200 || w == 0x9300 || w == 0x9301 ||
  w == 0xE000 || w == 0xE100

/-- A state in which the port takes the next word of the agenda: the configuration and the encodings are the spec's,
no interrupt is eligible and no frame is on the wire (60_exceptions.md R266, 44_emulator.md R230). -/
abbrev PortReady (s : State) : Prop :=
  legalParams s.cfg = true ∧ encodingReachable s = true ∧ interruptEligible s = false ∧ portBusy s = false

/-- `n` time-base steps. -/
def timeSteps : Nat → State → State
  | 0, s => s
  | n + 1, s => timeSteps n (timeStep s)

end Sys2Proof.Machine
end

