-- ==== Sys2Proof/Certificates/Slice0/Obligations.lean ====
section
/-!
DEFINITION. The statements for the provers, with the few terms only they use.
-/

open Sys2Proof Sys2Proof.Machine

/-! ## Terms of the statements -/

/-- The state a fault leaves (60_exceptions.md R260, R262): its bit of `fault` set, the word kept if it is the first
faulting one, RESP 0xFFFF, nothing else changed. -/
def Sys2Proof.Claims.faulted (bit : BitVec 2) (w : Word) (s : State) : State :=
  { s with
    faults := { fault := s.faults.fault ||| bit, faultCmd := if s.faults.fault = 0 then w else s.faults.faultCmd }
    resp := 0xFFFF }

/-- Operations performed one after the other, stopping at the first that stops. -/
def Sys2Proof.Claims.runAll : List Instr → State → Result
  | [], s => .next s
  | i :: is, s =>
    match exec i s with
    | .next t => Sys2Proof.Claims.runAll is t
    | .fault r => .fault r
    | .refused r => .refused r

/-- A tick handled when the running conversion is still in progress (`none`) or has completed with a sample
(`some v`): EV.TICK with the ADC in that condition. -/
def Sys2Proof.Claims.tickAt (e : Option Byte) (s : State) : State :=
  match e with
  | none => tickHandler { s with adc := { s.adc with busy := true } }
  | some v => tickHandler { s with adc := { s.adc with busy := false, result := v } }

/-- The field of `n` bits, LSB first, that a receiver reads from the line levels at symbol `lo`: a data bit is 1 where
the level is low (44_emulator.md R235). -/
def Sys2Proof.Claims.receivedField (f : BitVec 42) (lo n : Nat) : Nat :=
  ((List.range n).map fun j => if f.getLsbD (lo + j) then 0 else 2 ^ j).sum

/-- The direction 0..15 of a raw direction, in natural numbers (43_instrument.md R200). -/
def Sys2Proof.Claims.direction (raw : Word) : Nat := (raw.toNat + 31) / 64 % 16

/-- `n` is `num / den` rounded half up (00_scope.md R15), said without division. -/
def Sys2Proof.Claims.roundsHalfUpTo (num den n : Nat) : Prop :=
  2 * den * n ≤ 2 * num + den ∧ 2 * num + den < 2 * den * (n + 1)

open Sys2Proof.Claims

/-! ## Reset -/

/-- 70_reset_and_hazards.md R290, for every configuration and every choice of what R290 marks Draw. -/
def Obligations.ResetGivesEveryElementItsValue : Prop :=
  ∀ (p : Params) (d : Draws), ∀ s, s = State.resetWith p d →
    s.cfg = p ∧ s.time.timeUs = d.timeUs ∧ s.time.timeMs = d.timeMs ∧ s.time.msPresc = 0 ∧ s.time.tickCnt = 0 ∧
    s.irq.ie = true ∧ s.irq.inIsr = false ∧ s.irq.tickPending = false ∧ s.irq.edgePending = false ∧
    s.irq.tickOvr = false ∧ s.irq.edgeOvr = false ∧ s.pins.pulse = d.pulse ∧ s.sc.staleCnt = 0 ∧
    s.faults.fault = 0 ∧ s.faults.faultCmd = 0 ∧ s.resp = 0 ∧
    s.sc.sink = .none ∧ s.sc.desCh = 0 ∧ s.sc.curCh = 0 ∧ s.sc.settle = 0 ∧
    s.adc.busy = true ∧ s.adc.remain = p.adcConvUs ∧ s.adc.convCh = 0 ∧ s.adc.result = d.adcResult ∧
    s.ma.buf = List.replicate p.maWidth.toNat 0 ∧ s.ma.sum = 0 ∧ s.ma.idx = 0 ∧ s.ma.fill = 0 ∧
    s.pd.deb = 0 ∧ s.pd.asserted = false ∧ s.pd.fired = false ∧
    s.avg.sum = 0 ∧ s.avg.count = 0 ∧ s.avg.done = false ∧ s.cntCount = 0 ∧
    (∀ k, taskFlags k s = ⟨false, false⟩) ∧
    s.tasks.t1Pulses = 0 ∧ s.tasks.t1StartMs = 0 ∧ s.tasks.t3StartMs = 0 ∧
    s.wi.state = .idle ∧ s.wi.init = false ∧ s.wi.cbValid = false ∧ s.wi.cbTarget = .emulator ∧ s.wi.hostDone = false ∧
    s.wi.pcap = 0 ∧ s.wi.dcap = 0 ∧ s.wi.lastPc = 0 ∧ s.wi.lastDirRaw = 0 ∧
    s.emu.state = .disabled ∧ s.emu.writing = false ∧ s.emu.bitIdx = 0 ∧ s.emu.t0 = 0 ∧ s.emu.frame = 0 ∧
    s.emu.txd = true ∧ s.emu.ind = false ∧ portBusy s = false ∧ interruptEligible s = false ∧
    csrRead s 0x00 = 0x4100 ∧ csrRead s 0x18 = (if d.dtr then 0x0014 else 0x0004)

/-- The reset state meets the invariant under every legal configuration and every draw; so does `State.reset`, whose
open parameters and draws are the model's choice (entries 1, 2, 3). -/
def Obligations.ResetMeetsInvariant : Prop :=
  (∀ (p : Params) (d : Draws), legalParams p = true → Invariant (State.resetWith p d)) ∧ Invariant State.reset

/-- 70_reset_and_hazards.md R291: with only time passing, the reset conversion of channel 0 completes P_ADC_CONV_US µs
after reset, with the level the model holds for that channel (entry 13), the first tick expires P_TICK_US µs after reset
and not before, and it finds the result ready. -/
def Obligations.FirstTickFindsResetConversionReady : Prop :=
  ∀ (p : Params) (d : Draws) (n : Nat), legalParams p = true → n ≤ p.tickUs.toNat →
    ∀ t, t = timeSteps n (State.resetWith p d) →
      (t.irq.tickPending = true ↔ n = p.tickUs.toNat) ∧
      (t.adc.busy = true ↔ n < p.adcConvUs.toNat) ∧
      (p.adcConvUs.toNat ≤ n → t.adc.result = d.ain[0])

/-- 00_scope.md R9, 70_reset_and_hazards.md R307: the step refuses a configuration exactly when it breaks one of the
constraints (entry 11); and in any other it stops on exactly the values that no rule writes (93_implementation_defined.md
I9, 20_memory.md R75, 10_state.md R25). That it stops there is the model's choice (entry 10). -/
def Obligations.IllegalConfigurationIsRefused : Prop :=
  ∀ s : State,
    (step s = .refused .illegalConfiguration ↔
      ¬ (s.cfg.adcConvUs.toNat < s.cfg.tickUs.toNat ∧ 1 ≤ s.cfg.adcConvUs.toNat ∧ 1 ≤ s.cfg.pdThresh.toNat ∧
        s.cfg.pdThresh.toNat ≤ s.cfg.maWidth.toNat ∧ s.cfg.maWidth.toNat ≤ s.cfg.maWmax.toNat ∧
        4 ≤ s.cfg.settleK.toNat ∧ 1 ≤ s.cfg.avgN.toNat ∧ 2000 ≤ s.cfg.speedPeriodMs.toNat ∧
        1 ≤ s.cfg.bitUs.toNat ∧ s.cfg.dirShift.toNat ≤ 6)) ∧
    (step s = .fault .unreachableEncoding ↔
      step s ≠ .refused .illegalConfiguration ∧
        (42 < s.emu.bitIdx.toNat ∨ s.cfg.maWidth.toNat ≤ s.ma.idx.toNat ∨ 1000 ≤ s.time.msPresc.toNat ∨
          s.ma.buf.length ≠ s.cfg.maWidth.toNat ∨ s.cfg.tickUs.toNat ≤ s.time.tickCnt.toNat))

/-! ## The block's invariant, and what only some steps may do -/

/-- Every step of the block keeps the invariant. -/
def Obligations.StepKeepsInvariant : Prop :=
  ∀ s t : State, Invariant s → step s = .next t → Invariant t

/-- No step from a state that meets the invariant stops: no fault, no illegal word, no input halts the block
(60_exceptions.md R260, R275). -/
def Obligations.EveryStepFromInvariantContinues : Prop :=
  ∀ s : State, Invariant s → ∃ t, step s = .next t

/-- The fault bits, the first faulting word, the overrun bits and the stale counter are sticky: no step clears them
(10_state.md R28, R29, R30). -/
def Obligations.NoStepClearsFaultsOrDiagnostics : Prop :=
  ∀ s t : State, step s = .next t →
    s.faults.fault &&& t.faults.fault = s.faults.fault ∧
    (s.faults.fault ≠ 0 → t.faults.faultCmd = s.faults.faultCmd) ∧
    (s.irq.tickOvr = true → t.irq.tickOvr = true) ∧ (s.irq.edgeOvr = true → t.irq.edgeOvr = true) ∧
    s.sc.staleCnt.toNat ≤ t.sc.staleCnt.toNat

/-- No operation takes time (70_reset_and_hazards.md R310), moves a pin, writes a parameter or touches the moves to come
or the overrun bits. No operation sets a request: only EV.TICK clears a tick request, and only EV.EDGE and TASK.START 3,
the latter also through WI.SERVICE, clear an edge request (10_state.md R24). Only SYS.CLI and SYS.SEI write `ie`, and an
internal operation writes neither RESP nor a fault (30_encoding.md R84, 10_state.md R46, 60_exceptions.md R268). -/
def Obligations.WhatNoOperationTouches : Prop :=
  ∀ (i : Instr) (s t : State), exec i s = .next t →
    t.time = s.time ∧ t.pins = s.pins ∧ t.cfg = s.cfg ∧ t.agenda = s.agenda ∧
    t.irq.inIsr = s.irq.inIsr ∧ t.irq.tickOvr = s.irq.tickOvr ∧ t.irq.edgeOvr = s.irq.edgeOvr ∧
    (t.irq.tickPending ≠ s.irq.tickPending → s.irq.tickPending = true ∧ i = .evTick) ∧
    (t.irq.edgePending ≠ s.irq.edgePending →
      s.irq.edgePending = true ∧
        (i = .evEdge ∨ i = .taskStart 3 ∨
          (i = .wiService ∧ s.wi.state = .newSample ∧ s.cfg.speedSrc = .edgeCounter))) ∧
    (i ≠ .sysCli → i ≠ .sysSei → t.irq.ie = s.irq.ie) ∧
    (i.isInternal = true → t.resp = s.resp ∧ t.faults = s.faults)

/-- The sink changes only on a command whose rule registers or unregisters one (10_state.md R31: SC.REGISTER,
SC.UNREGISTER, TASK.START, TASK.STOP, WI.ABORT, WI.SERVICE, EMU.SERVICE), the multiplexer's channel only
in EV.TICK (R32), and the counters only in a time-base step (R22). The last clause speaks of the model's agenda: time
passes on a time move, with no move to come (entry 4), or while a command waits for the port (entry 5). -/
def Obligations.SampleClockAndTimeHaveOnlyTheirWriters : Prop :=
  ∀ s t : State, step s = .next t →
    (t.sc.sink ≠ s.sc.sink →
      ∃ w rest, s.agenda = .command w :: rest ∧
        (w.extractLsb' 8 8).toNat ∈ [0x10, 0x11, 0x70, 0x71, 0x82, 0x83, 0x90]) ∧
    (t.sc.curCh ≠ s.sc.curCh → interruptEligible s = true ∧ s.irq.tickPending = true ∧ t.sc.curCh = s.sc.desCh) ∧
    (t.time ≠ s.time →
      interruptEligible s = false ∧ t.time = (timeStep s).time ∧
      (s.agenda = [] ∨ (∃ rest, s.agenda = .time :: rest) ∨
        (portBusy s = true ∧ ∃ w rest, s.agenda = .command w :: rest)))

/-! ## Encoding -/

/-- Decoding an encoded operation gives it back, with every operand at every value of its field; and a word that decodes
is the encoding of what it decodes to, so that each word has one meaning (30_encoding.md R87). -/
def Obligations.DecodeAndEncodeAgree : Prop :=
  (∀ i : Instr, decode (encode i) = .ok i) ∧ ∀ (w : Word) (i : Instr), decode w = .ok i → encode i = w

/-- The decoder accepts exactly the words that hold a row of 30_encoding.md R85, and no two rows overlap (R87). -/
def Obligations.DecoderFollowsTheOpcodeRows : Prop :=
  (∀ w : Word, (∃ i, decode w = .ok i) ↔ ∃ r ∈ opcodeRows, r.holds w = true) ∧
  (∀ (w : Word) (r r' : OpcodeRow), r ∈ opcodeRows → r' ∈ opcodeRows →
    r.holds w = true → r'.holds w = true → r = r')

/-- Words the spec writes out (30_encoding.md R88, 95_test_vectors.md). -/
def Obligations.WrittenOutWordsDecode : Prop :=
  decode 0x100E = .ok (.scRegister 2 3) ∧ decode 0x7001 = .ok (.taskStart 1) ∧ decode 0x7609 = .ok (.taskService2 9) ∧
  decode 0x8101 = .ok (.wiStartSample true) ∧ decode 0x8100 = .ok (.wiStartSample false) ∧
  decode 0xF010 = .ok (.csrRead 0x10) ∧ decode 0x5113 = .ok (.avgProcess 19) ∧ decode 0x9000 = .ok .emuService ∧
  decode 0xA000 = .reject .reservedUnit ∧ decode 0x3400 = .reject .unlistedOp ∧ decode 0x1020 = .reject .reservedImmBit

/-! ## The port, the faults and the interrupts -/

/-- A legal word at the port runs its operation: the block's step is the operation, with the word taken from the
agenda (entry 4). The second clause says it of the word that `withFetchWord` places. -/
def Obligations.StepRunsTheDecodedCommand : Prop :=
  (∀ (s : State) (w : Word) (rest : List Move) (i : Instr),
    PortReady s → s.agenda = .command w :: rest → decode w = .ok i → i.isInternal = false →
    step s = exec i { s with agenda := rest }) ∧
  (∀ (s : State) (i : Instr), PortReady s → i.isInternal = false →
    step (s.withFetchWord 16 (encode i).toNat) = exec i s)

/-- 60_exceptions.md R263: every illegal word, whichever case of R86 applies, records ILLEGAL_CMD and has no other
effect. -/
def Obligations.IllegalWordOnlyRecordsItsFault : Prop :=
  ∀ (s : State) (w : Word) (rest : List Move),
    PortReady s → s.agenda = .command w :: rest → illegalOnPort w = true →
    step s = .next (faulted 1 w { s with agenda := rest })

/-- A legal word never raises ILLEGAL_CMD: only AVG.VALUE can record a fault, and only AVG_NOT_DONE
(60_exceptions.md R261). -/
def Obligations.LegalWordNeverRaisesIllegalCmd : Prop :=
  ∀ (s t : State) (w : Word) (rest : List Move),
    PortReady s → s.agenda = .command w :: rest → illegalOnPort w = false → step s = .next t →
    (t.faults = s.faults ∨ (w = 0x5200 ∧ s.avg.done = false ∧ t = faulted 2 w { s with agenda := rest }))

/-- 60_exceptions.md R266, R267, R268: while an interrupt is eligible the step is a handler of a pending request, in one
step between entry and return; the request is cleared and the other one kept, `in_isr` is back at 0, `ie` is kept, no
time passes, RESP and the faults are kept and no move of another agent is taken. -/
def Obligations.EligibleInterruptIsTakenFirst : Prop :=
  ∀ s : State, legalParams s.cfg = true → encodingReachable s = true → interruptEligible s = true →
    ∃ t, step s = .next t ∧ t.irq.inIsr = false ∧ t.irq.ie = true ∧ t.time = s.time ∧ t.agenda = s.agenda ∧
      t.resp = s.resp ∧ t.faults = s.faults ∧
      ((s.irq.tickPending = true ∧ t.irq.tickPending = false ∧ t.irq.edgePending = s.irq.edgePending ∧
          ∃ u, exec .evTick { s with irq := { s.irq with inIsr := true } } = .next u ∧
            t = { u with irq := { u.irq with inIsr := false }, free := t.free }) ∨
       (s.irq.edgePending = true ∧ t.irq.edgePending = false ∧ t.irq.tickPending = s.irq.tickPending ∧
          ∃ u, exec .evEdge { s with irq := { s.irq with inIsr := true } } = .next u ∧
            t = { u with irq := { u.irq with inIsr := false }, free := t.free }))

/-- 60_exceptions.md R266: with both requests pending, both orders of the handlers reach the same state. -/
def Obligations.HandlerOrderDoesNotMatter : Prop :=
  ∀ s : State, runAll [.evTick, .evEdge] s = runAll [.evEdge, .evTick] s ∧
    ∃ t, runAll [.evTick, .evEdge] s = .next t ∧ t.irq.tickPending = false ∧ t.irq.edgePending = false

/-- 20_memory.md R69: while `ie = 0` no handler runs, so a pending request stays pending (only TASK.START 3, called
through TASK.START or WI.SERVICE, clears an edge request), and only SYS.SEI ends the section. -/
def Obligations.CriticalSectionHoldsRequests : Prop :=
  ∀ s t : State, s.irq.ie = false → step s = .next t →
    (s.irq.tickPending = true → t.irq.tickPending = true) ∧
    (s.irq.edgePending = true → t.irq.edgePending = false →
      ∃ w rest, s.agenda = .command w :: rest ∧ (w = 0x7003 ∨ w = 0x8300) ∧ t.tasks.t3 = ⟨true, false⟩) ∧
    (t.irq.ie = true → ∃ rest, s.agenda = .command 0x0200 :: rest)

/-! ## The system commands and the CSR space -/

/-- 45_system.md R250 to R253. -/
def Obligations.SystemCommandsComplete : Prop :=
  ∀ s : State,
    exec .sysNop s = .next { s with resp := 0 } ∧
    exec .sysCli s = .next { s with irq := { s.irq with ie := false }, resp := 0 } ∧
    exec .sysSei s = .next { s with irq := { s.irq with ie := true }, resp := 0 } ∧
    (∀ a, exec (.csrRead a) s = .next { s with resp := csrRead s a }) ∧
    (∀ a : Byte, (0x15 ≤ a.toNat ∧ a.toNat ≤ 0x17) ∨ (0x23 ≤ a.toNat ∧ a.toNat ≤ 0x2F) ∨ 0x3D ≤ a.toNat →
      csrRead s a = 0)

/-- 10_state.md R49: the fields of the sample-clock, ADC and filter CSRs, with the numbers of the sinks (R31), and their
reset words. -/
def Obligations.SampleClockAndFilterCsrFields : Prop :=
  (∀ s : State,
    ((csrRead s 0x00).extractLsb' 0 2 = 0 ↔ s.sc.sink = .none) ∧
    ((csrRead s 0x00).extractLsb' 0 2 = 1 ↔ s.sc.sink = .speed) ∧
    ((csrRead s 0x00).extractLsb' 0 2 = 2 ↔ s.sc.sink = .direction) ∧
    (csrRead s 0x00).extractLsb' 2 3 = s.sc.desCh ∧
    (csrRead s 0x00).extractLsb' 5 3 = s.sc.curCh ∧ (csrRead s 0x00).getLsbD 8 = s.adc.busy ∧
    (csrRead s 0x00).extractLsb' 9 3 = s.adc.convCh ∧ (csrRead s 0x00).getLsbD 12 = s.irq.tickPending ∧
    (csrRead s 0x00).getLsbD 13 = s.irq.edgePending ∧ (csrRead s 0x00).getLsbD 14 = s.irq.ie ∧
    (csrRead s 0x00).getLsbD 15 = false ∧
    (csrRead s 0x01).toNat = s.sc.settle.toNat ∧ csrRead s 0x02 = s.sc.staleCnt ∧
    (csrRead s 0x03).toNat = s.adc.result.toNat ∧ csrRead s 0x04 = s.ma.sum ∧
    (csrRead s 0x05).toNat = 256 * s.ma.fill.toNat + s.ma.idx.toNat ∧
    (csrRead s 0x06).extractLsb' 0 8 = s.pd.deb ∧ (csrRead s 0x06).getLsbD 8 = s.pd.asserted ∧
    (csrRead s 0x06).getLsbD 9 = s.pd.fired ∧ (csrRead s 0x06).extractLsb' 10 6 = 0 ∧
    csrRead s 0x07 = s.avg.sum ∧ (csrRead s 0x08).extractLsb' 0 8 = s.avg.count ∧
    (csrRead s 0x08).getLsbD 8 = s.avg.done ∧ (csrRead s 0x08).extractLsb' 9 7 = 0 ∧
    (csrRead s 0x09).toNat = s.cntCount.toNat) ∧
  (∀ p d, csrRead (State.resetWith p d) 0x00 = 0x4100 ∧
    ∀ a : Byte, a ∈ [0x01, 0x02, 0x04, 0x05, 0x06, 0x07, 0x08, 0x09] → csrRead (State.resetWith p d) a = 0)

/-- 10_state.md R50: the fields of the task and reading-sequencer CSRs, with the numbers of the sequencer's states (R40),
and their reset words. -/
def Obligations.TaskAndInstrumentCsrFields : Prop :=
  (∀ s : State,
    (csrRead s 0x0A).getLsbD 0 = s.tasks.t1.started ∧ (csrRead s 0x0A).getLsbD 1 = s.tasks.t1.finished ∧
    (csrRead s 0x0A).getLsbD 2 = s.tasks.t2.started ∧ (csrRead s 0x0A).getLsbD 3 = s.tasks.t2.finished ∧
    (csrRead s 0x0A).getLsbD 4 = s.tasks.t3.started ∧ (csrRead s 0x0A).getLsbD 5 = s.tasks.t3.finished ∧
    (csrRead s 0x0A).extractLsb' 6 10 = 0 ∧
    (csrRead s 0x0B).toNat = s.tasks.t1Pulses.toNat ∧
    csrRead s 0x0D ++ csrRead s 0x0C = s.tasks.t1StartMs ∧ csrRead s 0x0F ++ csrRead s 0x0E = s.tasks.t3StartMs ∧
    ((csrRead s 0x10).extractLsb' 0 3 = 0 ↔ s.wi.state = .idle) ∧
    ((csrRead s 0x10).extractLsb' 0 3 = 1 ↔ s.wi.state = .newSample) ∧
    ((csrRead s 0x10).extractLsb' 0 3 = 2 ↔ s.wi.state = .samplingSpeed) ∧
    ((csrRead s 0x10).extractLsb' 0 3 = 3 ↔ s.wi.state = .samplingDirection) ∧
    ((csrRead s 0x10).extractLsb' 0 3 = 4 ↔ s.wi.state = .sendFrame) ∧
    (csrRead s 0x10).getLsbD 3 = s.wi.init ∧
    (csrRead s 0x10).getLsbD 4 = s.wi.cbValid ∧ ((csrRead s 0x10).getLsbD 5 = true ↔ s.wi.cbTarget = .host) ∧
    (csrRead s 0x10).getLsbD 6 = s.wi.hostDone ∧ (csrRead s 0x10).extractLsb' 7 9 = 0 ∧
    (csrRead s 0x11).toNat = s.wi.pcap.toNat ∧ csrRead s 0x12 = s.wi.dcap ∧
    (csrRead s 0x13).toNat = s.wi.lastPc.toNat ∧ csrRead s 0x14 = s.wi.lastDirRaw) ∧
  (∀ p d, ∀ a : Byte, 0x0A ≤ a.toNat → a.toNat ≤ 0x14 → csrRead (State.resetWith p d) a = 0)

/-- 10_state.md R51 with the word order of 20_memory.md R63: the emulator, time and fault CSRs, with the numbers of the
emulator's states (R44), and their reset words. -/
def Obligations.EmulatorTimeAndFaultCsrFields : Prop :=
  (∀ s : State,
    ((csrRead s 0x18).extractLsb' 0 2 = 0 ↔ s.emu.state = .disabled) ∧
    ((csrRead s 0x18).extractLsb' 0 2 = 1 ↔ s.emu.state = .startSample) ∧
    ((csrRead s 0x18).extractLsb' 0 2 = 2 ↔ s.emu.state = .sampling) ∧
    ((csrRead s 0x18).extractLsb' 0 2 = 3 ↔ s.emu.state = .sending) ∧
    (csrRead s 0x18).getLsbD 2 = s.emu.txd ∧
    (csrRead s 0x18).getLsbD 3 = s.emu.ind ∧ (csrRead s 0x18).getLsbD 4 = s.pins.dtr ∧
    (csrRead s 0x18).getLsbD 5 = s.emu.writing ∧ (csrRead s 0x18).extractLsb' 6 6 = s.emu.bitIdx ∧
    (csrRead s 0x18).extractLsb' 12 4 = 0 ∧
    (csrRead s 0x1B).extractLsb' 0 10 ++ csrRead s 0x1A ++ csrRead s 0x19 = s.emu.frame ∧
    (csrRead s 0x1B).extractLsb' 10 6 = 0 ∧
    csrRead s 0x1D ++ csrRead s 0x1C = s.time.timeUs ∧ csrRead s 0x1F ++ csrRead s 0x1E = s.time.timeMs ∧
    (csrRead s 0x20).toNat = s.faults.fault.toNat ∧
    (csrRead s 0x21).getLsbD 0 = s.irq.tickOvr ∧ (csrRead s 0x21).getLsbD 1 = s.irq.edgeOvr ∧
    (csrRead s 0x21).extractLsb' 2 14 = 0 ∧ csrRead s 0x22 = s.faults.faultCmd) ∧
  (∀ p d, (csrRead (State.resetWith p d) 0x18 &&& 0xFFEF = 0x0004) ∧
    (csrRead (State.resetWith p d) 0x18).getLsbD 4 = d.dtr ∧
    csrRead (State.resetWith p d) 0x1D ++ csrRead (State.resetWith p d) 0x1C = d.timeUs ∧
    csrRead (State.resetWith p d) 0x1F ++ csrRead (State.resetWith p d) 0x1E = d.timeMs ∧
    ∀ a : Byte, a ∈ [0x19, 0x1A, 0x1B, 0x20, 0x21, 0x22] → csrRead (State.resetWith p d) a = 0)

/-- 10_state.md R52: the parameter CSRs read as the elaborated values, after reset and in every later state. -/
def Obligations.ParameterCsrFields : Prop :=
  ∀ s : State,
    (csrRead s 0x30).toNat = s.cfg.settleK.toNat ∧ csrRead s 0x31 = s.cfg.tickUs ∧ csrRead s 0x32 = s.cfg.adcConvUs ∧
    (csrRead s 0x33).toNat = s.cfg.maWidth.toNat ∧ (csrRead s 0x34).toNat = s.cfg.pdLow.toNat ∧
    (csrRead s 0x35).toNat = s.cfg.pdThresh.toNat ∧ (csrRead s 0x36).toNat = s.cfg.pdDebounce.toNat ∧
    (csrRead s 0x37).toNat = s.cfg.avgN.toNat ∧ csrRead s 0x38 = s.cfg.speedPeriodMs ∧ csrRead s 0x39 = s.cfg.bitUs ∧
    (csrRead s 0x3A).extractLsb' 0 3 = s.cfg.speedCh ∧ (csrRead s 0x3A).extractLsb' 3 3 = s.cfg.dirCh ∧
    (csrRead s 0x3A).extractLsb' 6 10 = 0 ∧
    ((csrRead s 0x3B).getLsbD 0 = true ↔ s.cfg.speedSrc = .edgeCounter) ∧ (csrRead s 0x3B).getLsbD 1 = s.cfg.txdBusy ∧
    ((csrRead s 0x3B).getLsbD 2 = true ↔ s.cfg.muxSwitch = .early) ∧ (csrRead s 0x3B).getLsbD 3 = false ∧
    (csrRead s 0x3B).extractLsb' 4 4 = s.cfg.dirShift ∧ (csrRead s 0x3B).extractLsb' 8 8 = 0 ∧
    (csrRead s 0x3C).toNat = s.cfg.maWmax.toNat ∧ (∀ p d, (State.resetWith p d).cfg = p) ∧
    (∀ t, step s = .next t → t.cfg = s.cfg)

/-! ## The time base and the environment -/

/-- 10_state.md R22 over any number of time-base steps: the microsecond counter counts them, the millisecond counter
every thousandth of the prescaler's phase, both wrapping. -/
def Obligations.ClocksCountMicroseconds : Prop :=
  ∀ (n : Nat) (s : State), s.time.msPresc.toNat < 1000 → ∀ t, t = timeSteps n s →
    t.time.timeUs = s.time.timeUs + BitVec.ofNat 32 n ∧
    t.time.timeMs = s.time.timeMs + BitVec.ofNat 32 ((s.time.msPresc.toNat + n) / 1000) ∧
    t.time.msPresc.toNat = (s.time.msPresc.toNat + n) % 1000

/-- 10_state.md R25 over any number of time-base steps: the timer expires every P_TICK_US steps, the first expiry pends,
and an expiry that finds a request pending is lost with `tick_ovr` set. -/
def Obligations.TickTimerExpiresEveryPeriod : Prop :=
  ∀ (n : Nat) (s : State), s.time.tickCnt.toNat < s.cfg.tickUs.toNat →
    ∀ k, k = (s.time.tickCnt.toNat + n) / s.cfg.tickUs.toNat → ∀ t, t = timeSteps n s →
      t.time.tickCnt.toNat = (s.time.tickCnt.toNat + n) % s.cfg.tickUs.toNat ∧
      (t.irq.tickPending = true ↔ s.irq.tickPending = true ∨ 1 ≤ k) ∧
      (t.irq.tickOvr = true ↔ s.irq.tickOvr = true ∨ (s.irq.tickPending = true ∧ 1 ≤ k) ∨ 2 ≤ k)

/-- 40_sampleclock.md R101, 20_memory.md R70 step 2: a conversion takes exactly P_ADC_CONV_US time-base steps, and then
gives the level, held by the model (entry 13), of the channel that was selected when it started. -/
def Obligations.ConversionTakesItsTime : Prop :=
  ∀ (s : State) (n : Nat), 1 ≤ s.cfg.adcConvUs.toNat → n ≤ s.cfg.adcConvUs.toNat →
    ∃ s0, exec .adcStart s = .next s0 ∧ ∀ t, t = timeSteps n s0 →
      t.adc.convCh = s.sc.curCh ∧ (t.adc.busy = true ↔ n < s.cfg.adcConvUs.toNat) ∧
      t.adc.result = (if n < s.cfg.adcConvUs.toNat then s.adc.result else s.pins.ain[s.sc.curCh.toFin])

/-- 42_tasks.md R174, 20_memory.md R70 step 3: a started, unfinished task 1 or 3 finishes at the first time-base step
whose millisecond count is P_SPEED_PERIOD_MS or more after its start; nothing else of the tasks changes. -/
def Obligations.SpeedWindowFinishesByTime : Prop :=
  ∀ (s t : State), t = timeStep s →
    t.tasks.t1.finished =
      (s.tasks.t1.finished ||
        (s.tasks.t1.started && decide (s.cfg.speedPeriodMs.toNat ≤ (t.time.timeMs - s.tasks.t1StartMs).toNat))) ∧
    t.tasks.t3.finished =
      (s.tasks.t3.finished ||
        (s.tasks.t3.started && decide (s.cfg.speedPeriodMs.toNat ≤ (t.time.timeMs - s.tasks.t3StartMs).toNat))) ∧
    t.tasks.t1.started = s.tasks.t1.started ∧ t.tasks.t3.started = s.tasks.t3.started ∧ t.tasks.t2 = s.tasks.t2 ∧
    t.tasks.t1Pulses = s.tasks.t1Pulses ∧ t.tasks.t1StartMs = s.tasks.t1StartMs ∧ t.tasks.t3StartMs = s.tasks.t3StartMs

/-- 42_tasks.md R174: after TASK.START 1 or 3, with only time passing, the window has finished exactly when
P_SPEED_PERIOD_MS·1000 microseconds have passed since the millisecond in which it started, so it lasts between 999
microseconds less than the period and the period. -/
def Obligations.SpeedWindowLastsItsPeriod : Prop :=
  ∀ (s : State) (n : Nat), s.time.msPresc.toNat < 1000 → 1 ≤ s.cfg.speedPeriodMs.toNat →
    n ≤ 1000 * s.cfg.speedPeriodMs.toNat →
    (∃ s0, exec (.taskStart 1) s = .next s0 ∧
      ((timeSteps n s0).tasks.t1.finished = true ↔ 1000 * s.cfg.speedPeriodMs.toNat ≤ s.time.msPresc.toNat + n)) ∧
    (∃ s0, exec (.taskStart 3) s = .next s0 ∧
      ((timeSteps n s0).tasks.t3.finished = true ↔ 1000 * s.cfg.speedPeriodMs.toNat ≤ s.time.msPresc.toNat + n))

/-- What a time-base step leaves alone (20_memory.md R70); without a frame on the wire, the emulator and RESP too. -/
def Obligations.TimeStepFrame : Prop :=
  ∀ (s t : State), t = timeStep s →
    t.cfg = s.cfg ∧ t.faults = s.faults ∧ t.sc = s.sc ∧ t.ma = s.ma ∧ t.pd = s.pd ∧ t.avg = s.avg ∧
    t.cntCount = s.cntCount ∧ t.wi = s.wi ∧ t.pins = s.pins ∧ t.agenda = s.agenda ∧ t.free = s.free ∧
    t.irq.ie = s.irq.ie ∧ t.irq.inIsr = s.irq.inIsr ∧ t.irq.edgePending = s.irq.edgePending ∧
    t.irq.edgeOvr = s.irq.edgeOvr ∧ t.emu.frame = s.emu.frame ∧ t.emu.t0 = s.emu.t0 ∧
    (s.emu.writing = false → t.emu = s.emu ∧ t.resp = s.resp)

/-- 20_memory.md R70, R71, 10_state.md R26: while no interrupt is eligible, a time-base step or an environment step is
taken whether or not the port is busy, and with no move to come time passes (entry 4); DTR and the analog inputs have no
immediate effect, and only a fall of PULSE requests the edge interrupt, or is lost with `edge_ovr` set. -/
def Obligations.TimeAndEnvironmentTakeTheirMoves : Prop :=
  ∀ (s : State) (rest : List Move),
    legalParams s.cfg = true → encodingReachable s = true → interruptEligible s = false →
    (s.agenda = [] → step s = .next (timeStep s)) ∧
    (s.agenda = .time :: rest → step s = .next (timeStep { s with agenda := rest })) ∧
    (∀ level, s.agenda = .env (.dtr level) :: rest →
      step s = .next { s with agenda := rest, pins := { s.pins with dtr := level } }) ∧
    (∀ ch v, s.agenda = .env (.ain ch v) :: rest →
      step s = .next { s with agenda := rest, pins := { s.pins with ain := s.pins.ain.set ch.toFin v } }) ∧
    (∀ level, s.agenda = .env (.pulse level) :: rest → ¬ (s.pins.pulse = true ∧ level = false) →
      step s = .next { s with agenda := rest, pins := { s.pins with pulse := level } }) ∧
    (s.agenda = .env (.pulse false) :: rest → s.pins.pulse = true → s.irq.edgePending = false →
      step s = .next { s with agenda := rest, pins := { s.pins with pulse := false },
                              irq := { s.irq with edgePending := true } }) ∧
    (s.agenda = .env (.pulse false) :: rest → s.pins.pulse = true → s.irq.edgePending = true →
      step s = .next { s with agenda := rest, pins := { s.pins with pulse := false },
                              irq := { s.irq with edgeOvr := true } })

/-! ## Sample clock and ADC -/

/-- 40_sampleclock.md R104, R105: registration replaces, deregistration is a compare-and-clear, and an illegal sink
raises ILLEGAL_CMD. -/
def Obligations.SinkCommandsComplete : Prop :=
  ∀ (s : State) (ch : Channel),
    exec (.scRegister 1 ch) s =
      .next { s with sc := { s.sc with sink := .speed, desCh := ch, settle := s.cfg.settleK }, resp := 0 } ∧
    exec (.scRegister 2 ch) s =
      .next { s with sc := { s.sc with sink := .direction, desCh := ch, settle := s.cfg.settleK }, resp := 0 } ∧
    exec (.scRegister 0 ch) s = .next (faulted 1 (encode (.scRegister 0 ch)) s) ∧
    exec (.scRegister 3 ch) s = .next (faulted 1 (encode (.scRegister 3 ch)) s) ∧
    exec (.scUnregister 0) s = .next { s with resp := 0 } ∧
    exec (.scUnregister 1) s =
      .next { s with sc := { s.sc with sink := if s.sc.sink = .speed then .none else s.sc.sink }, resp := 0 } ∧
    exec (.scUnregister 2) s =
      .next { s with sc := { s.sc with sink := if s.sc.sink = .direction then .none else s.sc.sink }, resp := 0 } ∧
    exec (.scUnregister 3) s = .next (faulted 1 0x1103 s)

/-- 40_sampleclock.md R100 to R103: the micro-operations, as another rule performs them; ADC.READY and ADC.READ write
nothing and return a value (entry 9). -/
def Obligations.AdcMicroOperationsComplete : Prop :=
  ∀ (s : State) (ch : Channel),
    exec (.adcSelect ch) s = .next { s with sc := { s.sc with curCh := ch } } ∧
    exec .adcStart s =
      .next { s with adc := { s.adc with busy := true, remain := s.cfg.adcConvUs, convCh := s.sc.curCh } } ∧
    (exec .adcReady s = .next s ∧ adcReady s = !s.adc.busy) ∧
    (exec .adcRead s = .next s ∧ adcRead s = s.adc.result)

/-- 40_sampleclock.md R110: a stale tick, a settling tick and a delivering tick. -/
def Obligations.TickHandlerPaths : Prop :=
  ∀ s : State,
    (s.adc.busy = true →
      exec .evTick s =
        .next { s with
          irq := { s.irq with tickPending := false }
          sc := { s.sc with staleCnt := if s.sc.staleCnt = 0xFFFF then 0xFFFF else s.sc.staleCnt + 1 } }) ∧
    (s.adc.busy = false → s.sc.settle ≠ 0 → ∀ ch, ch = (if s.cfg.muxSwitch = .early then s.sc.desCh else s.sc.curCh) →
      exec .evTick s =
        .next { s with
          irq := { s.irq with tickPending := false }
          sc := { s.sc with settle := s.sc.settle - 1, curCh := ch }
          adc := { s.adc with busy := true, remain := s.cfg.adcConvUs, convCh := ch } }) ∧
    (s.adc.busy = false → s.sc.settle = 0 →
      ∀ s1, s1 = { s with
          irq := { s.irq with tickPending := false }
          sc := { s.sc with curCh := s.sc.desCh }
          adc := { s.adc with busy := true, remain := s.cfg.adcConvUs, convCh := s.sc.desCh } } →
        (s.sc.sink = .none → exec .evTick s = .next s1) ∧
        (s.sc.sink = .speed → exec .evTick s = .next (taskService1 s.adc.result s1)) ∧
        (s.sc.sink = .direction → exec .evTick s = .next (taskService2 s.adc.result s1)))

/-- 40_sampleclock.md R111: over any ticks, stale ones among them, while no more of them are non-stale than the settle
countdown, no sample is delivered and each non-stale tick counts one down; once it is at 0 the next non-stale tick
delivers its sample to the task the sink names. -/
def Obligations.SettleCountsNonStaleTicks : Prop :=
  ∀ (es : List (Option Byte)) (s t : State), t = es.foldl (fun s e => tickAt e s) s →
    (es.filter Option.isSome).length ≤ s.sc.settle.toNat →
    t.sc.settle.toNat = s.sc.settle.toNat - (es.filter Option.isSome).length ∧
    t.sc.sink = s.sc.sink ∧ t.sc.desCh = s.sc.desCh ∧
    t.ma = s.ma ∧ t.pd = s.pd ∧ t.avg = s.avg ∧ t.cntCount = s.cntCount ∧ t.tasks = s.tasks ∧
    (t.sc.settle = 0 → ∀ v,
      (t.sc.sink = .speed →
        (tickAt (some v) t).pd = (taskService1 v t).pd ∧ (tickAt (some v) t).ma = (taskService1 v t).ma ∧
        (tickAt (some v) t).tasks = (taskService1 v t).tasks) ∧
      (t.sc.sink = .direction →
        (tickAt (some v) t).avg = (taskService2 v t).avg ∧ (tickAt (some v) t).tasks = (taskService2 v t).tasks))

/-- 42_tasks.md R179: after TASK.START 2, with no stale tick, the direction task finishes at the (K + n)-th tick, having
averaged the samples from the (K + 1)-th on. -/
def Obligations.DirectionTaskTakesSettlePlusSamples : Prop :=
  ∀ (s : State) (vs : List Byte), legalParams s.cfg = true →
    ∀ k n, k = s.cfg.settleK.toNat → n = s.cfg.avgN.toNat → vs.length ≤ k + n →
    ∃ s0, exec (.taskStart 2) s = .next s0 ∧
      ∀ t, t = vs.foldl (fun s v => tickAt (some v) s) s0 →
        (t.tasks.t2.finished = true ↔ vs.length = k + n) ∧
        t.avg.count.toNat = vs.length - k ∧ t.avg.sum.toNat = ((vs.drop k).map BitVec.toNat).sum

/-- 42_tasks.md R178, R177: the edge handler counts one edge for a running task 3 and none otherwise. -/
def Obligations.EdgeHandlerCountsForRunningTask : Prop :=
  ∀ s : State,
    exec .evEdge s =
      .next { s with
        irq := { s.irq with edgePending := false }
        cntCount := if s.tasks.t3.started && !s.tasks.t3.finished then s.cntCount + 1 else s.cntCount }

/-! ## Filters -/

/-- 41_filters.md R130 to R133. On a sound ring a push replaces the oldest entry: the sum loses it and gains the new one
without wrapping, and never exceeds 255·W. -/
def Obligations.MovingAverageCommandsComplete : Prop :=
  ∀ s : State,
    exec .maClear s =
      .next { s with ma := { buf := List.replicate s.cfg.maWidth.toNat 0, sum := 0, idx := 0, fill := 0 }, resp := 0 } ∧
    exec .maSum s = .next { s with resp := s.ma.sum } ∧
    (∃ t, exec .maAverage s = .next t ∧ t = { s with resp := t.resp } ∧
      t.resp.toNat = s.ma.sum.toNat / s.cfg.maWidth.toNat) ∧
    (RingSound s.cfg s.ma → ∀ v old : Byte, s.ma.buf[s.ma.idx.toNat]? = some old →
      ∃ t, exec (.maPush v) s = .next t ∧ t = { s with ma := t.ma, resp := 0 } ∧
        t.ma.buf = s.ma.buf.set s.ma.idx.toNat v ∧
        t.ma.sum.toNat + old.toNat = s.ma.sum.toNat + v.toNat ∧
        t.ma.sum.toNat ≤ 255 * s.cfg.maWidth.toNat ∧
        t.ma.idx.toNat = (s.ma.idx.toNat + 1) % s.cfg.maWidth.toNat ∧
        t.ma.fill.toNat = min (s.ma.fill.toNat + 1) s.cfg.maWidth.toNat)

/-- 41_filters.md R134: after exactly W pushes the sum is that of the last W values, whatever the ring held before. -/
def Obligations.FullWindowSumsTheLastValues : Prop :=
  ∀ (s : State) (vs : List Byte), RingSound s.cfg s.ma → vs.length = s.cfg.maWidth.toNat →
    ∃ t, runAll (vs.map Instr.maPush) s = .next t ∧
      t.ma.sum.toNat = (vs.map BitVec.toNat).sum ∧ t.ma.idx = s.ma.idx ∧ t.ma.fill = s.cfg.maWidth

/-- 41_filters.md R140, R141, R142: clearing the detector, and one sample through its four steps, with the response. -/
def Obligations.PulseDetectorCommandsComplete : Prop :=
  ∀ (s : State) (v : Byte),
    exec .pdClear s =
      .next { s with ma := { buf := List.replicate s.cfg.maWidth.toNat 0, sum := 0, idx := 0, fill := 0 },
                     pd := { deb := 0, asserted := false, fired := false }, resp := 0 } ∧
    ∃ t m, exec (.pdProcess v) s = .next t ∧
      exec (.maPush (if v.toNat ≤ s.cfg.pdLow.toNat then 1 else 0)) s = .next m ∧
      t = { s with ma := m.ma, pd := t.pd, tasks := { s.tasks with t1Pulses := t.tasks.t1Pulses }, resp := t.resp } ∧
      (t.pd.asserted = true ↔ s.cfg.pdThresh.toNat ≤ m.ma.sum.toNat) ∧
      (t.pd.fired = true ↔ t.pd.asserted = true ∧ s.pd.deb.toNat ≤ 1) ∧
      t.pd.deb.toNat = (if t.pd.fired then s.cfg.pdDebounce.toNat else s.pd.deb.toNat - 1) ∧
      t.tasks.t1Pulses = s.tasks.t1Pulses + (if t.pd.fired then 1 else 0) ∧
      t.resp.toNat = (if t.pd.asserted then 2 else 0) + (if t.pd.fired then 1 else 0)

/-- 41_filters.md R143: in exact mode, a low run of L ≥ W samples after a clear fires floor((L - W) / D) + 1 times for
D ≥ 1 and L - W + 1 times for D = 0. -/
def Obligations.LowRunFiresByDebounceSpacing : Prop :=
  ∀ (s : State) (vs : List Byte), legalParams s.cfg = true → s.cfg.pdThresh = s.cfg.maWidth →
    (∀ v ∈ vs, v.toNat ≤ s.cfg.pdLow.toNat) → s.cfg.maWidth.toNat ≤ vs.length →
    ∃ t, runAll (.pdClear :: vs.map Instr.pdProcess) s = .next t ∧
      t.tasks.t1Pulses = s.tasks.t1Pulses +
        BitVec.ofNat 8 (if s.cfg.pdDebounce = 0 then vs.length - s.cfg.maWidth.toNat + 1
          else (vs.length - s.cfg.maWidth.toNat) / s.cfg.pdDebounce.toNat + 1)

/-- 41_filters.md R150, R151, R153, and AVG.VALUE of R152 with its fault (60_exceptions.md R264). -/
def Obligations.AveragerCommandsComplete : Prop :=
  ∀ (s : State) (v : Byte),
    exec .avgClear s = .next { s with avg := { sum := 0, count := 0, done := false }, resp := 0 } ∧
    (s.avg.done = true → exec (.avgProcess v) s = .next { s with resp := 0 }) ∧
    (s.avg.done = false →
      exec (.avgProcess v) s =
        .next { s with avg := { sum := s.avg.sum + v.setWidth 16, count := s.avg.count + 1,
                                done := s.avg.count + 1 == s.cfg.avgN }, resp := 0 }) ∧
    exec .avgDone s = .next { s with resp := if s.avg.done then 1 else 0 } ∧
    (s.avg.done = false → exec .avgValue s = .next (faulted 2 0x5200 s)) ∧
    (s.avg.done = true →
      ∃ t, exec .avgValue s = .next t ∧ t = { s with resp := t.resp } ∧
        t.resp.toNat = s.avg.sum.toNat / s.avg.count.toNat)

/-- 41_filters.md R154: from a clear, the averager is done exactly at the P_AVG_N-th sample, and AVG.VALUE then answers
floor(sum / n). -/
def Obligations.AveragerDoneAtTheNthSample : Prop :=
  ∀ (s : State) (vs : List Byte), 1 ≤ s.cfg.avgN.toNat → vs.length ≤ s.cfg.avgN.toNat →
    ∃ t, runAll (.avgClear :: vs.map Instr.avgProcess) s = .next t ∧
      (t.avg.done = true ↔ vs.length = s.cfg.avgN.toNat) ∧
      (vs.length = s.cfg.avgN.toNat →
        ∃ u, exec .avgValue t = .next u ∧ u.resp.toNat = (vs.map BitVec.toNat).sum / s.cfg.avgN.toNat ∧
          u.faults = s.faults)

/-- 41_filters.md R160, R161, R162: the count wraps at 256 and ignores the sample's value. -/
def Obligations.SampleCounterCommandsComplete : Prop :=
  ∀ (s : State) (v : Byte),
    exec .cntClear s = .next { s with cntCount := 0, resp := 0 } ∧
    (∃ t, exec (.cntProcess v) s = .next t ∧ t = { s with cntCount := t.cntCount, resp := 0 } ∧
      t.cntCount.toNat = (s.cntCount.toNat + 1) % 256) ∧
    ∃ t, exec .cntCount s = .next t ∧ t = { s with resp := t.resp } ∧ t.resp.toNat = s.cntCount.toNat

/-! ## Tasks -/

/-- 42_tasks.md R170: starting each task, and task 0. -/
def Obligations.TaskStartComplete : Prop :=
  ∀ s : State,
    exec (.taskStart 1) s =
      .next { s with
        ma := { buf := List.replicate s.cfg.maWidth.toNat 0, sum := 0, idx := 0, fill := 0 }
        pd := { deb := 0, asserted := false, fired := false }
        tasks := { s.tasks with t1 := ⟨true, false⟩, t1Pulses := 0, t1StartMs := s.time.timeMs }
        sc := { s.sc with sink := .speed, desCh := s.cfg.speedCh, settle := s.cfg.settleK }, resp := 0 } ∧
    exec (.taskStart 2) s =
      .next { s with
        avg := { sum := 0, count := 0, done := false }
        tasks := { s.tasks with t2 := ⟨true, false⟩ }
        sc := { s.sc with sink := .direction, desCh := s.cfg.dirCh, settle := s.cfg.settleK }, resp := 0 } ∧
    exec (.taskStart 3) s =
      .next { s with
        cntCount := 0
        tasks := { s.tasks with t3 := ⟨true, false⟩, t3StartMs := s.time.timeMs }
        irq := { s.irq with edgePending := false }, resp := 0 } ∧
    exec (.taskStart 0) s = .next (faulted 1 0x7000 s)

/-- 42_tasks.md R172, R173: stopping each task and asking whether it has finished, and task 0. -/
def Obligations.TaskStopAndFinishedComplete : Prop :=
  ∀ s : State,
    exec (.taskStop 1) s =
      .next { s with
        tasks := { s.tasks with t1 := { s.tasks.t1 with started := false } }
        sc := { s.sc with sink := if s.sc.sink = .speed then .none else s.sc.sink }, resp := 0 } ∧
    exec (.taskStop 2) s =
      .next { s with
        tasks := { s.tasks with t2 := { s.tasks.t2 with started := false } }
        sc := { s.sc with sink := if s.sc.sink = .direction then .none else s.sc.sink }, resp := 0 } ∧
    exec (.taskStop 3) s =
      .next { s with tasks := { s.tasks with t3 := { s.tasks.t3 with started := false } }, resp := 0 } ∧
    exec (.taskStop 0) s = .next (faulted 1 0x7100 s) ∧
    exec (.taskFinished 1) s = .next { s with resp := if s.tasks.t1.finished then 1 else 0 } ∧
    exec (.taskFinished 2) s = .next { s with resp := if s.tasks.t2.finished then 1 else 0 } ∧
    exec (.taskFinished 3) s = .next { s with resp := if s.tasks.t3.finished then 1 else 0 } ∧
    exec (.taskFinished 0) s = .next (faulted 1 0x7200 s)

/-- 42_tasks.md R175, R176, R177: a running task gives the sample to its filter, any other ignores it; the direction
task finishes with its averager. -/
def Obligations.TaskServiceComplete : Prop :=
  ∀ (s : State) (v : Byte),
    (s.tasks.t1 = ⟨true, false⟩ →
      ∃ t, exec (.pdProcess v) s = .next t ∧ exec (.taskService1 v) s = .next { t with resp := 0 }) ∧
    (s.tasks.t1 ≠ ⟨true, false⟩ → exec (.taskService1 v) s = .next { s with resp := 0 }) ∧
    (s.tasks.t2 = ⟨true, false⟩ →
      ∃ t, exec (.avgProcess v) s = .next t ∧
        exec (.taskService2 v) s =
          .next { t with tasks := { t.tasks with t2 := ⟨true, t.avg.done⟩ }, resp := 0 }) ∧
    (s.tasks.t2 ≠ ⟨true, false⟩ → exec (.taskService2 v) s = .next { s with resp := 0 }) ∧
    (s.tasks.t3 = ⟨true, false⟩ →
      exec (.taskService3 v) s = .next { s with cntCount := s.cntCount + 1, resp := 0 }) ∧
    (s.tasks.t3 ≠ ⟨true, false⟩ → exec (.taskService3 v) s = .next { s with resp := 0 })

/-! ## Reading sequencer -/

/-- 43_instrument.md R190, R192, R193, R201: initialising, an accepted and a rejected start, an abort and the acknowledge.
An abort stops every task, leaves no sink, clears the callback and the captures and goes idle; the last reading, the
finished flags and `wi_host_done` stay, and at IDLE it does nothing. -/
def Obligations.InstrumentControlCommandsComplete : Prop :=
  ∀ (s : State) (b : Bool),
    exec .wiInit s = .next { s with wi := { s.wi with init := true }, resp := 0 } ∧
    (s.wi.init = true → s.wi.state = .idle →
      exec (.wiStartSample b) s =
        .next { s with
          wi := { s.wi with cbValid := true, cbTarget := if b then .host else .emulator, state := .newSample }
          resp := 1 }) ∧
    (s.wi.init = false ∨ s.wi.state ≠ .idle → exec (.wiStartSample b) s = .next { s with resp := 0 }) ∧
    (s.wi.state = .idle → exec .wiAbort s = .next { s with resp := 0 }) ∧
    (s.wi.state ≠ .idle →
      exec .wiAbort s =
        .next { s with
          tasks := { s.tasks with
            t1 := { s.tasks.t1 with started := false }
            t2 := { s.tasks.t2 with started := false }
            t3 := { s.tasks.t3 with started := false } }
          sc := { s.sc with sink := .none }
          wi := { s.wi with cbValid := false, cbTarget := .emulator, pcap := 0, dcap := 0, state := .idle }
          resp := 0 }) ∧
    exec .wiAck s = .next { s with wi := { s.wi with hostDone := false }, resp := 0 }

/-- 43_instrument.md R194, R195: WI.SERVICE in IDLE, NEW_SAMPLE and SAMPLING_SPEED, for both speed sources. -/
def Obligations.ServiceOpensAndClosesSpeedWindow : Prop :=
  ∀ s : State,
    (s.wi.state = .idle → exec .wiService s = .next { s with resp := 0 }) ∧
    (s.wi.state = .newSample → ∀ k, k = (if s.cfg.speedSrc = .pulseDetector then (1 : BitVec 2) else 3) →
      ∃ t, exec (.taskStart k) s = .next t ∧
        exec .wiService s = .next { t with wi := { t.wi with state := .samplingSpeed } }) ∧
    (s.wi.state = .samplingSpeed → s.cfg.speedSrc = .pulseDetector → s.tasks.t1.finished = true →
      exec .wiService s =
        .next { s with
          avg := { sum := 0, count := 0, done := false }
          tasks := { s.tasks with t1 := ⟨false, true⟩, t2 := ⟨true, false⟩ }
          sc := { s.sc with sink := .direction, desCh := s.cfg.dirCh, settle := s.cfg.settleK }
          wi := { s.wi with pcap := s.tasks.t1Pulses, state := .samplingDirection }, resp := 0 }) ∧
    (s.wi.state = .samplingSpeed → s.cfg.speedSrc = .edgeCounter → s.tasks.t3.finished = true →
      exec .wiService s =
        .next { s with
          avg := { sum := 0, count := 0, done := false }
          tasks := { s.tasks with t3 := ⟨false, true⟩, t2 := ⟨true, false⟩ }
          sc := { s.sc with sink := .direction, desCh := s.cfg.dirCh, settle := s.cfg.settleK }
          wi := { s.wi with pcap := s.cntCount, state := .samplingDirection }, resp := 0 }) ∧
    (s.wi.state = .samplingSpeed → (s.cfg.speedSrc = .pulseDetector → s.tasks.t1.finished = false) →
      (s.cfg.speedSrc = .edgeCounter → s.tasks.t3.finished = false) →
      exec .wiService s = .next { s with resp := 0 })

/-- 43_instrument.md R196: WI.SERVICE in SAMPLING_DIRECTION. With `avg_count = 0`, which only a host's AVG.CLEAR after the
finish can bring about, the spec states no average: the reading still completes, with some captured value (entry 7). -/
def Obligations.ServiceCapturesDirection : Prop :=
  ∀ s : State, s.wi.state = .samplingDirection →
    (s.tasks.t2.finished = false → exec .wiService s = .next { s with resp := 0 }) ∧
    (s.tasks.t2.finished = true →
      ∃ t, exec .wiService s = .next t ∧
        t = { s with
          tasks := { s.tasks with t2 := ⟨false, true⟩ }
          sc := { s.sc with sink := if s.sc.sink = .direction then .none else s.sc.sink }
          wi := { s.wi with dcap := t.wi.dcap, state := .sendFrame }
          free := t.free, resp := 0 } ∧
        (s.avg.count ≠ 0 → t.free = s.free ∧
          t.wi.dcap.toNat = s.avg.sum.toNat / s.avg.count.toNat * 2 ^ s.cfg.dirShift.toNat % 2 ^ 16))

/-- 43_instrument.md R197: WI.SERVICE in SEND_FRAME commits the reading, clears the callback, goes idle and invokes the
target. -/
def Obligations.ServiceCommitsTheReading : Prop :=
  ∀ s : State, s.wi.state = .sendFrame →
    (s.wi.cbTarget = .emulator →
      exec .wiService s =
        .next { s with
          wi := { s.wi with lastPc := s.wi.pcap, lastDirRaw := s.wi.dcap, cbValid := false, state := .idle }
          emu := { s.emu with state := .sending, txd := s.cfg.txdBusy, ind := true }, resp := 0 }) ∧
    (s.wi.cbTarget = .host →
      exec .wiService s =
        .next { s with
          wi := { s.wi with lastPc := s.wi.pcap, lastDirRaw := s.wi.dcap, cbValid := false, cbTarget := .emulator,
                            state := .idle, hostDone := true }, resp := 0 })

/-- 43_instrument.md R191: the transitions of the sequencer, and no other. -/
def Obligations.SequencerTransitions : Prop :=
  (∀ (i : Instr) (s t : State), exec i s = .next t → t.wi.state ≠ s.wi.state →
    (s.wi.state = .idle ∧ t.wi.state = .newSample ∧ s.wi.init = true ∧
      ((∃ b, i = .wiStartSample b) ∨ (i = .emuService ∧ s.emu.state = .startSample))) ∨
    (i = .wiService ∧ s.wi.state = .newSample ∧ t.wi.state = .samplingSpeed) ∨
    (i = .wiService ∧ s.wi.state = .samplingSpeed ∧ t.wi.state = .samplingDirection ∧
      (taskFlags (speedTask s.cfg) s).finished = true) ∨
    (i = .wiService ∧ s.wi.state = .samplingDirection ∧ t.wi.state = .sendFrame ∧ s.tasks.t2.finished = true) ∨
    (i = .wiService ∧ s.wi.state = .sendFrame ∧ t.wi.state = .idle) ∨
    ((i = .wiAbort ∨ (i = .emuService ∧ s.emu.state = .sampling ∧ s.pins.dtr = true)) ∧
      s.wi.state ≠ .idle ∧ t.wi.state = .idle)) ∧
  (∀ s : State, (timeStep s).wi = s.wi ∧ ∀ e, (envStep e s).wi = s.wi)

/-- 43_instrument.md R199, R200: the getters write only RESP. Under a legal period the speed is the exact rational
225000·pc / P rounded half up, at most 28688, and the direction is that of R200. -/
def Obligations.GettersAnswerTheLastReading : Prop :=
  ∀ s : State, 2000 ≤ s.cfg.speedPeriodMs.toNat →
    (∃ t, exec .wiGetMph s = .next t ∧ t = { s with resp := t.resp } ∧
      roundsHalfUpTo (s.wi.lastPc.toNat * 225000) s.cfg.speedPeriodMs.toNat t.resp.toNat ∧ t.resp.toNat ≤ 28688) ∧
    (∃ t, exec .wiGetDir s = .next t ∧ t = { s with resp := t.resp } ∧ t.resp.toNat = direction s.wi.lastDirRaw)

/-- 43_instrument.md R202: with P_DIR_SHIFT = 2, the direction of every averaged sample, and of a frame built from it. -/
def Obligations.DirectionOfAveragedSample : Prop :=
  ∀ (s : State) (a : Byte) (d : Nat), s.wi.lastDirRaw = BitVec.ofNat 16 (4 * a.toNat) →
    ((1 ≤ d ∧ d ≤ 15 ∧ 16 * d ≤ a.toNat + 7 ∧ a.toNat ≤ 16 * d + 8) ∨ (d = 0 ∧ (a.toNat ≤ 8 ∨ 249 ≤ a.toNat))) →
    ∃ t f, exec .wiGetDir s = .next t ∧ t.resp.toNat = d ∧
      exec .emuBuildFrame s = .next f ∧ receivedField f.emu.frame 5 4 = d

/-- 43_instrument.md R203: the frame's speed units are the exact rational 50292·pc / (5·P) rounded half up; for a legal
period they are at most 1282, so the 12-bit mask never changes them; with the values the rule lists. -/
def Obligations.SpeedUnitsRoundTheExactRational : Prop :=
  (∀ (pc : Byte) (period : Word), 2000 ≤ period.toNat →
    roundsHalfUpTo (50292 * pc.toNat) (5 * period.toNat) (speedUnits pc period).toNat ∧
    (speedUnits pc period).toNat ≤ 1282) ∧
  (speedUnits 1 2250 = 4 ∧ speedUnits 2 2250 = 9 ∧ speedUnits 3 2250 = 13 ∧ speedUnits 5 2250 = 22 ∧
    speedUnits 10 2250 = 45 ∧ speedUnits 20 2250 = 89 ∧ speedUnits 50 2250 = 224 ∧ speedUnits 100 2250 = 447 ∧
    speedUnits 200 2250 = 894 ∧ speedUnits 255 2250 = 1140 ∧ speedUnits 255 2000 = 1282)

/-! ## Emulator -/

/-- 44_emulator.md R222 to R225: EMU.SERVICE in every state. In SENDING it builds the frame from the last reading, marks
its start, makes the port busy and drives symbol 0, and RESP waits for the completion; with a frame already on the wire,
which R225 says cannot arise, the model stops (entry 12). -/
def Obligations.EmulatorServiceComplete : Prop :=
  ∀ s : State,
    (s.emu.state = .disabled → s.pins.dtr = true → exec .emuService s = .next { s with resp := 0 }) ∧
    (s.emu.state = .disabled → s.pins.dtr = false →
      exec .emuService s =
        .next { s with emu := { s.emu with state := .startSample, txd := s.cfg.txdBusy, ind := true }, resp := 0 }) ∧
    (s.emu.state = .startSample →
      ∃ t, exec (.wiStartSample false) s = .next t ∧
        exec .emuService s =
          .next { t with emu := { s.emu with state := .sampling, txd := s.cfg.txdBusy, ind := true }, resp := 0 }) ∧
    (s.emu.state = .sampling → s.pins.dtr = false → exec .emuService s = .next { s with resp := 0 }) ∧
    (s.emu.state = .sampling → s.pins.dtr = true →
      ∃ t, exec .wiAbort s = .next t ∧ t.wi.state = .idle ∧
        exec .emuService s = .next { t with emu := { s.emu with state := .disabled, txd := true, ind := false } }) ∧
    (s.emu.state = .sending → s.emu.writing = false →
      ∃ f, exec .emuBuildFrame s = .next f ∧
        exec .emuService s =
          .next { s with emu := { s.emu with
            frame := f.emu.frame, t0 := s.time.timeUs, bitIdx := 0, writing := true, txd := f.emu.frame.getLsbD 0 } }) ∧
    (s.emu.state = .sending → s.emu.writing = true → exec .emuService s = .fault .serviceWhileWriting)

/-- 44_emulator.md R226, R227, R231: the internal operations of the emulator, as another rule performs them. -/
def Obligations.EmulatorInternalOperationsComplete : Prop :=
  ∀ (s : State) (b : Bool),
    exec .emuOnComplete s = .next { s with emu := { s.emu with state := .sending, txd := s.cfg.txdBusy, ind := true } } ∧
    (∃ t, exec .emuBuildFrame s = .next t ∧ t = { s with emu := { s.emu with frame := t.emu.frame } }) ∧
    exec (.emuWriteBit b) s = .next { s with emu := { s.emu with txd := b } }

/-- 44_emulator.md R227, R228, R235: a receiver that decodes the 42 levels of a built frame by R235 recovers the header,
the direction, the speed units, the checksum, the two complements and the stop bit. -/
def Obligations.ReceiverRecoversTheReading : Prop :=
  ∀ s : State, 2000 ≤ s.cfg.speedPeriodMs.toNat →
    ∃ t u, exec .emuBuildFrame s = .next t ∧
      roundsHalfUpTo (50292 * s.wi.lastPc.toNat) (5 * s.cfg.speedPeriodMs.toNat) u ∧
      ∀ f dir, f = t.emu.frame → dir = direction s.wi.lastDirRaw →
        (f.getLsbD 0 = false ∧ f.getLsbD 1 = false ∧ f.getLsbD 2 = true ∧ f.getLsbD 3 = false ∧ f.getLsbD 4 = false) ∧
        receivedField f 5 4 = dir ∧ receivedField f 9 12 = u ∧
        receivedField f 21 4 = (dir + u % 16 + u / 16 % 16 + u / 256 % 16) % 16 ∧
        receivedField f 25 4 = 15 - dir ∧ receivedField f 29 12 = 4095 - u ∧ f.getLsbD 41 = true

/-- 44_emulator.md R225, R228, R232, R233: n microseconds after the frame's start, symbol n / P_BIT_US is on the wire;
after exactly 42·P_BIT_US the port is free, RESP is 0, and the state and the levels follow DTR. -/
def Obligations.FrameSymbolsHoldTheirSlots : Prop :=
  ∀ (s s0 : State) (n : Nat), 1 ≤ s.cfg.bitUs.toNat → s.emu.state = .sending → exec .emuService s = .next s0 →
    n ≤ 42 * s.cfg.bitUs.toNat → ∀ t, t = timeSteps n s0 →
      (n < 42 * s.cfg.bitUs.toNat →
        t.emu.writing = true ∧ t.emu.state = .sending ∧ t.emu.bitIdx.toNat = n / s.cfg.bitUs.toNat ∧
        t.emu.txd = s0.emu.frame.getLsbD (n / s.cfg.bitUs.toNat) ∧ t.emu.frame = s0.emu.frame ∧ t.resp = s.resp) ∧
      (n = 42 * s.cfg.bitUs.toNat →
        t.emu.writing = false ∧ t.emu.bitIdx = 42 ∧ t.resp = 0 ∧
        (s.pins.dtr = false → t.emu.state = .startSample ∧ t.emu.txd = s.cfg.txdBusy ∧ t.emu.ind = true) ∧
        (s.pins.dtr = true → t.emu.state = .disabled ∧ t.emu.txd = true ∧ t.emu.ind = false))

/-- 44_emulator.md R230: while a frame is on the wire a command waits and time passes (entry 5), and a handler is taken as at any
time and moves no bit edge. (The environment's steps are in `TimeAndEnvironmentTakeTheirMoves`.) -/
def Obligations.BusyPortHoldsCommands : Prop :=
  ∀ s : State, legalParams s.cfg = true → encodingReachable s = true → s.emu.writing = true →
    (interruptEligible s = false → ∀ w rest, s.agenda = .command w :: rest →
      step s = .next (timeStep s) ∧ (timeStep s).agenda = .command w :: rest) ∧
    (interruptEligible s = true → ∃ t, step s = .next t ∧ t.emu = s.emu ∧ t.time = s.time ∧ t.agenda = s.agenda)

/-- 44_emulator.md R220: the transitions of the emulator, and no other. That a completed frame leaves SENDING rests on the
invariant, since a state that no run reaches may hold a frame on the wire in another state. -/
def Obligations.EmulatorTransitions : Prop :=
  (∀ (i : Instr) (s t : State), exec i s = .next t → t.emu.state ≠ s.emu.state →
    (i = .emuService ∧ s.emu.state = .disabled ∧ t.emu.state = .startSample ∧ s.pins.dtr = false) ∨
    (i = .emuService ∧ s.emu.state = .startSample ∧ t.emu.state = .sampling) ∨
    (i = .emuService ∧ s.emu.state = .sampling ∧ t.emu.state = .disabled ∧ s.pins.dtr = true) ∨
    (t.emu.state = .sending ∧
      (i = .emuOnComplete ∨ (i = .wiService ∧ s.wi.state = .sendFrame ∧ s.wi.cbTarget = .emulator)))) ∧
  (∀ s : State, (timeStep s).emu.state ≠ s.emu.state →
    s.emu.writing = true ∧ (timeStep s).emu.writing = false ∧
    (timeStep s).emu.state = (if s.pins.dtr then .disabled else .startSample) ∧
    (Invariant s → s.emu.state = .sending)) ∧
  (∀ (s : State) (e : EnvStep), (envStep e s).emu = s.emu)
end

