-- ==== Sys2Proof/Laws/Exec.lean ====
section
/-!
SUPPORT. When an operation, and a step of the block, can stop at all.
-/

namespace Sys2Proof.Machine

/-- An operation refuses nothing. -/
theorem exec_ne_refused (i : Instr) (s : State) (r : Refusal) : exec i s ≠ .refused r := by
  cases i <;> intro h
  case scRegister => simp only [exec, execScRegister] at h; split at h <;> simp at h
  case scUnregister => simp only [exec, execScUnregister] at h; split at h <;> simp at h
  case taskStart => simp only [exec, execTaskStart] at h; split at h <;> simp at h
  case taskStop => simp only [exec, execTaskStop] at h; split at h <;> simp at h
  case taskFinished => simp only [exec, execTaskFinished] at h; split at h <;> simp at h
  case avgValue => simp only [exec, execAvgValue] at h; split at h <;> simp at h
  case emuService =>
    simp only [exec, execEmuService] at h
    split at h
    case h_4 => split at h <;> simp at h
    all_goals simp at h
  all_goals cases h

/-- Only EMU.SERVICE can fault, and only while a frame is on the wire (44_emulator.md R225). -/
theorem exec_fault (i : Instr) (s : State) (r : Fault) (h : exec i s = .fault r) :
    i = .emuService ∧ r = .serviceWhileWriting ∧ s.emu.state = .sending ∧ s.emu.writing = true := by
  cases i
  case scRegister => simp only [exec, execScRegister] at h; split at h <;> simp at h
  case scUnregister => simp only [exec, execScUnregister] at h; split at h <;> simp at h
  case taskStart => simp only [exec, execTaskStart] at h; split at h <;> simp at h
  case taskStop => simp only [exec, execTaskStop] at h; split at h <;> simp at h
  case taskFinished => simp only [exec, execTaskFinished] at h; split at h <;> simp at h
  case avgValue => simp only [exec, execAvgValue] at h; split at h <;> simp at h
  case emuService =>
    simp only [exec, execEmuService] at h
    split at h
    case h_4 hs =>
      split at h
      · next hw => simp at h; exact ⟨rfl, h.symm, hs, hw⟩
      · simp at h
    all_goals simp at h
  all_goals cases h

/-- With the port free, every operation answers a next state. -/
theorem exec_next (i : Instr) (s : State) (h : s.emu.writing = false) : ∃ t, exec i s = .next t := by
  cases hr : exec i s with
  | next t => exact ⟨t, rfl⟩
  | fault r =>
    have := (exec_fault i s r hr).2.2.2
    simp [h] at this
  | refused r => exact absurd hr (exec_ne_refused i s r)

/-- A handler answers a next state, whatever the emulator does. -/
theorem runHandler_tick (s : State) :
    runHandler .evTick s = .next (returnFromInterrupt (tickHandler (enterInterrupt s))) := rfl

theorem runHandler_edge (s : State) :
    runHandler .evEdge s = .next (returnFromInterrupt (edgeHandler (enterInterrupt s))) := rfl

/-- A step of the block under a legal configuration and reachable encodings, without the two checks. -/
theorem step_eq (s : State) (hl : legalParams s.cfg = true) (he : encodingReachable s = true) :
    step s = if interruptEligible s then takeInterrupt s else nextMove s := by
  simp [step, blockStep, hl, he]

/-- A step that answers a next state passed the two checks. -/
theorem step_next (s t : State) (h : step s = .next t) :
    legalParams s.cfg = true ∧ encodingReachable s = true ∧
      (if interruptEligible s then takeInterrupt s else nextMove s) = .next t := by
  unfold step blockStep at h
  split at h
  · simp at h
  · split at h
    · simp at h
    · simp_all

end Sys2Proof.Machine
end

