-- ==== Sys2Proof/Laws/State.lean ====
section
/-!
SUPPORT. What each basic update of the state does to each field, by `rfl`, so that no later proof unfolds it.
-/

namespace Sys2Proof.Machine

/-! ## Answering -/

@[simp] theorem respond_cfg (v : Word) (s : State) : (respond v s).cfg = s.cfg := rfl
@[simp] theorem respond_time (v : Word) (s : State) : (respond v s).time = s.time := rfl
@[simp] theorem respond_irq (v : Word) (s : State) : (respond v s).irq = s.irq := rfl
@[simp] theorem respond_faults (v : Word) (s : State) : (respond v s).faults = s.faults := rfl
@[simp] theorem respond_sc (v : Word) (s : State) : (respond v s).sc = s.sc := rfl
@[simp] theorem respond_adc (v : Word) (s : State) : (respond v s).adc = s.adc := rfl
@[simp] theorem respond_ma (v : Word) (s : State) : (respond v s).ma = s.ma := rfl
@[simp] theorem respond_pd (v : Word) (s : State) : (respond v s).pd = s.pd := rfl
@[simp] theorem respond_avg (v : Word) (s : State) : (respond v s).avg = s.avg := rfl
@[simp] theorem respond_cntCount (v : Word) (s : State) : (respond v s).cntCount = s.cntCount := rfl
@[simp] theorem respond_tasks (v : Word) (s : State) : (respond v s).tasks = s.tasks := rfl
@[simp] theorem respond_wi (v : Word) (s : State) : (respond v s).wi = s.wi := rfl
@[simp] theorem respond_emu (v : Word) (s : State) : (respond v s).emu = s.emu := rfl
@[simp] theorem respond_pins (v : Word) (s : State) : (respond v s).pins = s.pins := rfl
@[simp] theorem respond_agenda (v : Word) (s : State) : (respond v s).agenda = s.agenda := rfl
@[simp] theorem respond_free (v : Word) (s : State) : (respond v s).free = s.free := rfl
@[simp] theorem respond_resp (v : Word) (s : State) : (respond v s).resp = v := rfl

/-! ## Recording a fault -/

@[simp] theorem raiseFault_cfg (c : FaultCode) (w : Word) (s : State) : (raiseFault c w s).cfg = s.cfg := rfl
@[simp] theorem raiseFault_time (c : FaultCode) (w : Word) (s : State) : (raiseFault c w s).time = s.time := rfl
@[simp] theorem raiseFault_irq (c : FaultCode) (w : Word) (s : State) : (raiseFault c w s).irq = s.irq := rfl
@[simp] theorem raiseFault_sc (c : FaultCode) (w : Word) (s : State) : (raiseFault c w s).sc = s.sc := rfl
@[simp] theorem raiseFault_adc (c : FaultCode) (w : Word) (s : State) : (raiseFault c w s).adc = s.adc := rfl
@[simp] theorem raiseFault_ma (c : FaultCode) (w : Word) (s : State) : (raiseFault c w s).ma = s.ma := rfl
@[simp] theorem raiseFault_pd (c : FaultCode) (w : Word) (s : State) : (raiseFault c w s).pd = s.pd := rfl
@[simp] theorem raiseFault_avg (c : FaultCode) (w : Word) (s : State) : (raiseFault c w s).avg = s.avg := rfl
@[simp] theorem raiseFault_cntCount (c : FaultCode) (w : Word) (s : State) : (raiseFault c w s).cntCount = s.cntCount := rfl
@[simp] theorem raiseFault_tasks (c : FaultCode) (w : Word) (s : State) : (raiseFault c w s).tasks = s.tasks := rfl
@[simp] theorem raiseFault_wi (c : FaultCode) (w : Word) (s : State) : (raiseFault c w s).wi = s.wi := rfl
@[simp] theorem raiseFault_emu (c : FaultCode) (w : Word) (s : State) : (raiseFault c w s).emu = s.emu := rfl
@[simp] theorem raiseFault_pins (c : FaultCode) (w : Word) (s : State) : (raiseFault c w s).pins = s.pins := rfl
@[simp] theorem raiseFault_agenda (c : FaultCode) (w : Word) (s : State) : (raiseFault c w s).agenda = s.agenda := rfl
@[simp] theorem raiseFault_free (c : FaultCode) (w : Word) (s : State) : (raiseFault c w s).free = s.free := rfl
@[simp] theorem raiseFault_resp (c : FaultCode) (w : Word) (s : State) : (raiseFault c w s).resp = 0xFFFF := rfl
@[simp] theorem raiseFault_fault (c : FaultCode) (w : Word) (s : State) :
    (raiseFault c w s).faults.fault = s.faults.fault ||| faultBit c := rfl
@[simp] theorem raiseFault_faultCmd (c : FaultCode) (w : Word) (s : State) :
    (raiseFault c w s).faults.faultCmd = if s.faults.fault = 0 then w else s.faults.faultCmd := rfl

/-! ## Entering a handler -/

@[simp] theorem enterInterrupt_cfg (s : State) : (enterInterrupt s).cfg = s.cfg := rfl
@[simp] theorem enterInterrupt_time (s : State) : (enterInterrupt s).time = s.time := rfl
@[simp] theorem enterInterrupt_faults (s : State) : (enterInterrupt s).faults = s.faults := rfl
@[simp] theorem enterInterrupt_sc (s : State) : (enterInterrupt s).sc = s.sc := rfl
@[simp] theorem enterInterrupt_adc (s : State) : (enterInterrupt s).adc = s.adc := rfl
@[simp] theorem enterInterrupt_ma (s : State) : (enterInterrupt s).ma = s.ma := rfl
@[simp] theorem enterInterrupt_pd (s : State) : (enterInterrupt s).pd = s.pd := rfl
@[simp] theorem enterInterrupt_avg (s : State) : (enterInterrupt s).avg = s.avg := rfl
@[simp] theorem enterInterrupt_cntCount (s : State) : (enterInterrupt s).cntCount = s.cntCount := rfl
@[simp] theorem enterInterrupt_tasks (s : State) : (enterInterrupt s).tasks = s.tasks := rfl
@[simp] theorem enterInterrupt_wi (s : State) : (enterInterrupt s).wi = s.wi := rfl
@[simp] theorem enterInterrupt_emu (s : State) : (enterInterrupt s).emu = s.emu := rfl
@[simp] theorem enterInterrupt_resp (s : State) : (enterInterrupt s).resp = s.resp := rfl
@[simp] theorem enterInterrupt_pins (s : State) : (enterInterrupt s).pins = s.pins := rfl
@[simp] theorem enterInterrupt_agenda (s : State) : (enterInterrupt s).agenda = s.agenda := rfl
@[simp] theorem enterInterrupt_free (s : State) : (enterInterrupt s).free = s.free := rfl
@[simp] theorem enterInterrupt_inIsr (s : State) : (enterInterrupt s).irq.inIsr = true := rfl
@[simp] theorem enterInterrupt_ie (s : State) : (enterInterrupt s).irq.ie = s.irq.ie := rfl
@[simp] theorem enterInterrupt_tickPending (s : State) : (enterInterrupt s).irq.tickPending = s.irq.tickPending := rfl
@[simp] theorem enterInterrupt_edgePending (s : State) : (enterInterrupt s).irq.edgePending = s.irq.edgePending := rfl
@[simp] theorem enterInterrupt_tickOvr (s : State) : (enterInterrupt s).irq.tickOvr = s.irq.tickOvr := rfl
@[simp] theorem enterInterrupt_edgeOvr (s : State) : (enterInterrupt s).irq.edgeOvr = s.irq.edgeOvr := rfl

/-! ## Leaving a handler -/

@[simp] theorem returnFromInterrupt_cfg (s : State) : (returnFromInterrupt s).cfg = s.cfg := rfl
@[simp] theorem returnFromInterrupt_time (s : State) : (returnFromInterrupt s).time = s.time := rfl
@[simp] theorem returnFromInterrupt_faults (s : State) : (returnFromInterrupt s).faults = s.faults := rfl
@[simp] theorem returnFromInterrupt_sc (s : State) : (returnFromInterrupt s).sc = s.sc := rfl
@[simp] theorem returnFromInterrupt_adc (s : State) : (returnFromInterrupt s).adc = s.adc := rfl
@[simp] theorem returnFromInterrupt_ma (s : State) : (returnFromInterrupt s).ma = s.ma := rfl
@[simp] theorem returnFromInterrupt_pd (s : State) : (returnFromInterrupt s).pd = s.pd := rfl
@[simp] theorem returnFromInterrupt_avg (s : State) : (returnFromInterrupt s).avg = s.avg := rfl
@[simp] theorem returnFromInterrupt_cntCount (s : State) : (returnFromInterrupt s).cntCount = s.cntCount := rfl
@[simp] theorem returnFromInterrupt_tasks (s : State) : (returnFromInterrupt s).tasks = s.tasks := rfl
@[simp] theorem returnFromInterrupt_wi (s : State) : (returnFromInterrupt s).wi = s.wi := rfl
@[simp] theorem returnFromInterrupt_emu (s : State) : (returnFromInterrupt s).emu = s.emu := rfl
@[simp] theorem returnFromInterrupt_resp (s : State) : (returnFromInterrupt s).resp = s.resp := rfl
@[simp] theorem returnFromInterrupt_pins (s : State) : (returnFromInterrupt s).pins = s.pins := rfl
@[simp] theorem returnFromInterrupt_agenda (s : State) : (returnFromInterrupt s).agenda = s.agenda := rfl
@[simp] theorem returnFromInterrupt_free (s : State) : (returnFromInterrupt s).free = s.free := rfl
@[simp] theorem returnFromInterrupt_inIsr (s : State) : (returnFromInterrupt s).irq.inIsr = false := rfl
@[simp] theorem returnFromInterrupt_ie (s : State) : (returnFromInterrupt s).irq.ie = s.irq.ie := rfl
@[simp] theorem returnFromInterrupt_tickPending (s : State) : (returnFromInterrupt s).irq.tickPending = s.irq.tickPending := rfl
@[simp] theorem returnFromInterrupt_edgePending (s : State) : (returnFromInterrupt s).irq.edgePending = s.irq.edgePending := rfl
@[simp] theorem returnFromInterrupt_tickOvr (s : State) : (returnFromInterrupt s).irq.tickOvr = s.irq.tickOvr := rfl
@[simp] theorem returnFromInterrupt_edgeOvr (s : State) : (returnFromInterrupt s).irq.edgeOvr = s.irq.edgeOvr := rfl

end Sys2Proof.Machine
end

