-- ==== Sys2Proof/Laws/Ops.lean ====
section
/-!
SUPPORT. For each shared operation, once, all it can change: the operation is the state with the named fields
replaced. A proof cites the lemma instead of unfolding the operation.
-/

namespace Sys2Proof.Machine

/-! ## Sample clock and filters -/

theorem adcSelect_changes_only (ch : Channel) (s : State) :
    adcSelect ch s = { s with sc := { s.sc with curCh := ch } } := rfl

theorem adcStart_changes_only (s : State) : adcStart s = { s with adc := (adcStart s).adc } := rfl

theorem scRegister_changes_only (k : Sink) (ch : Channel) (s : State) :
    scRegister k ch s = { s with sc := { s.sc with sink := k, desCh := ch, settle := s.cfg.settleK } } := rfl

/-- Compare-and-clear (40_sampleclock.md R105), without a case split. -/
theorem scUnregister_changes_only (k : Sink) (s : State) :
    scUnregister k s = { s with sc := { s.sc with sink := if s.sc.sink = k then .none else s.sc.sink } } := by
  unfold scUnregister
  split <;> rfl

theorem maClear_changes_only (s : State) : maClear s = { s with ma := (maClear s).ma } := rfl

theorem maPush_changes_only (v : Byte) (s : State) : maPush v s = { s with ma := (maPush v s).ma } := rfl

theorem pdClear_changes_only (s : State) : pdClear s = { s with ma := (maClear s).ma, pd := (pdClear s).pd } := rfl

theorem pdProcess_changes_only (v : Byte) (s : State) :
    pdProcess v s =
      { s with
        ma := (maPush (lowBit s.cfg v) s).ma
        pd := (pdProcess v s).pd
        tasks := { s.tasks with t1Pulses := (pdProcess v s).tasks.t1Pulses } } := rfl

theorem avgClear_changes_only (s : State) : avgClear s = { s with avg := (avgClear s).avg } := rfl

theorem avgProcess_changes_only (v : Byte) (s : State) : avgProcess v s = { s with avg := (avgProcess v s).avg } := by
  unfold avgProcess
  split <;> rfl

theorem cntProcess_changes_only (v : Byte) (s : State) : cntProcess v s = { s with cntCount := s.cntCount + 1 } := rfl

/-! ## Tasks -/

theorem setTaskFlags_changes_only (t : TaskId) (f : TaskFlags) (s : State) :
    setTaskFlags t f s = { s with tasks := (setTaskFlags t f s).tasks } := by
  cases t <;> rfl

/-- TASK.START changes its filter, the tasks, the sample clock's registration and, for task 3, the edge request
(42_tasks.md R170). -/
theorem taskStart_changes_only (t : TaskId) (s : State) :
    taskStart t s =
      { s with
        ma := (taskStart t s).ma, pd := (taskStart t s).pd, avg := (taskStart t s).avg
        cntCount := (taskStart t s).cntCount, tasks := (taskStart t s).tasks
        sc := { s.sc with sink := (taskStart t s).sc.sink, desCh := (taskStart t s).sc.desCh,
                          settle := (taskStart t s).sc.settle }
        irq := { s.irq with edgePending := (taskStart t s).irq.edgePending } } := by
  cases t <;> rfl

/-- TASK.STOP changes one started flag and possibly the sink (42_tasks.md R172). -/
theorem taskStop_changes_only (t : TaskId) (s : State) :
    taskStop t s =
      { s with
        tasks := (setTaskFlags t { taskFlags t s with started := false } s).tasks
        sc := { s.sc with sink := (taskStop t s).sc.sink } } := by
  cases t <;> simp only [taskStop, scUnregister_changes_only] <;> rfl

theorem taskService1_changes_only (v : Byte) (s : State) :
    taskService1 v s =
      { s with
        ma := (taskService1 v s).ma, pd := (taskService1 v s).pd
        tasks := { s.tasks with t1Pulses := (taskService1 v s).tasks.t1Pulses } } := by
  unfold taskService1
  split <;> rfl

theorem taskService2_changes_only (v : Byte) (s : State) :
    taskService2 v s =
      { s with
        avg := (taskService2 v s).avg
        tasks := { s.tasks with t2 := { s.tasks.t2 with finished := (taskService2 v s).tasks.t2.finished } } } := by
  unfold taskService2
  rw [avgProcess_changes_only v s]
  split
  · dsimp only
    split <;> rfl
  · rfl

theorem taskService3_changes_only (v : Byte) (s : State) :
    taskService3 v s = { s with cntCount := (taskService3 v s).cntCount } := by
  unfold taskService3
  split <;> rfl

/-! ## Interrupt handlers -/

theorem deliverSample_changes_only (v : Byte) (s : State) :
    deliverSample v s =
      { s with
        ma := (deliverSample v s).ma, pd := (deliverSample v s).pd, avg := (deliverSample v s).avg
        tasks := { s.tasks with
          t1Pulses := (deliverSample v s).tasks.t1Pulses
          t2 := { s.tasks.t2 with finished := (deliverSample v s).tasks.t2.finished } } } := by
  unfold deliverSample
  split
  · rfl
  · rw [taskService1_changes_only v s]
  · rw [taskService2_changes_only v s]

theorem reprogramMux_changes_only (s : State) :
    reprogramMux s = { s with sc := { s.sc with curCh := s.sc.desCh } } := by
  unfold reprogramMux adcSelect
  split
  · next h => rw [h]
  · rfl

/-- What EV.TICK can write (40_sampleclock.md R110, Writes). -/
theorem tickHandler_changes_only (s : State) :
    tickHandler s =
      { s with
        irq := { s.irq with tickPending := false }
        sc := { s.sc with settle := (tickHandler s).sc.settle, curCh := (tickHandler s).sc.curCh,
                          staleCnt := (tickHandler s).sc.staleCnt }
        adc := (tickHandler s).adc
        ma := (tickHandler s).ma, pd := (tickHandler s).pd, avg := (tickHandler s).avg
        tasks := { s.tasks with
          t1Pulses := (tickHandler s).tasks.t1Pulses
          t2 := { s.tasks.t2 with finished := (tickHandler s).tasks.t2.finished } } } := by
  unfold tickHandler
  dsimp only
  split
  · rfl
  · simp only [reprogramMux_changes_only]
    split
    · split
      · rfl
      · rw [deliverSample_changes_only]; rfl
    · split
      · rfl
      · rw [deliverSample_changes_only]; rfl

/-- What EV.EDGE can write (42_tasks.md R178, Writes). -/
theorem edgeHandler_changes_only (s : State) :
    edgeHandler s =
      { s with irq := { s.irq with edgePending := false }, cntCount := (edgeHandler s).cntCount } := by
  unfold edgeHandler
  rw [taskService3_changes_only]

/-! ## Emulator and reading sequencer -/

/-- A state change sets the two levels with it (44_emulator.md R221). -/
theorem emuEnter_changes_only (e : EmuState) (s : State) :
    emuEnter e s =
      { s with emu := { s.emu with
        state := e, txd := (if e = .disabled then true else s.cfg.txdBusy), ind := decide (e ≠ .disabled) } } := by
  cases e <;> rfl

theorem emuBeginFrame_changes_only (s : State) :
    emuBeginFrame s =
      { s with emu := { s.emu with
        frame := (emuBuildFrame s).emu.frame, t0 := s.time.timeUs, bitIdx := 0, writing := true
        txd := (emuBuildFrame s).emu.frame.getLsbD 0 } } := rfl

theorem wiStartSample_changes_only (target : CallbackTarget) (s : State) :
    wiStartSample target s = { s with wi := (wiStartSample target s).wi } := by
  unfold wiStartSample
  split <;> rfl

/-- What WI.ABORT can write (43_instrument.md R193). -/
theorem wiAbort_changes_only (s : State) :
    wiAbort s =
      { s with
        tasks := (wiAbort s).tasks, sc := { s.sc with sink := (wiAbort s).sc.sink }, wi := (wiAbort s).wi } := by
  unfold wiAbort
  split
  · rfl
  · dsimp only
    rw [taskStop_changes_only .edge, taskStop_changes_only .direction, taskStop_changes_only .speed]

/-- What WI.SERVICE can write (43_instrument.md R194 to R197). -/
theorem wiService_changes_only (s : State) :
    wiService s =
      { s with
        irq := { s.irq with edgePending := (wiService s).irq.edgePending }
        sc := { s.sc with sink := (wiService s).sc.sink, desCh := (wiService s).sc.desCh,
                          settle := (wiService s).sc.settle }
        ma := (wiService s).ma, pd := (wiService s).pd, avg := (wiService s).avg, cntCount := (wiService s).cntCount
        tasks := (wiService s).tasks, wi := (wiService s).wi
        emu := { s.emu with state := (wiService s).emu.state, txd := (wiService s).emu.txd,
                            ind := (wiService s).emu.ind }
        free := (wiService s).free } := by
  unfold wiService
  split
  · rfl
  · unfold wiServiceNewSample
    rw [taskStart_changes_only]
  · unfold wiServiceSamplingSpeed
    split
    · rw [taskStart_changes_only, taskStop_changes_only]
    · rfl
  · unfold wiServiceSamplingDirection
    split
    · dsimp only
      split <;> rw [taskStop_changes_only]
    · rfl
  · unfold wiServiceSendFrame
    split
    · unfold emuOnComplete
      rw [emuEnter_changes_only]
    · rfl

end Sys2Proof.Machine
end

