-- ==== Sys2Proof/Laws/PerInstr.lean ====
section
/-!
SUPPORT. Statements for every operation, proved one constructor at a time.
-/

namespace Sys2Proof.Laws

/-- The position of an operation's own row in 30_encoding.md R85. -/
def EncodesItsRow.row : Instr → Nat
  | .sysNop => 0
  | .sysCli => 1
  | .sysSei => 2
  | .scRegister _ _ => 3
  | .scUnregister _ => 4
  | .adcSelect _ => 5
  | .adcStart => 6
  | .adcReady => 7
  | .adcRead => 8
  | .maClear => 9
  | .maPush _ => 10
  | .maSum => 11
  | .maAverage => 12
  | .pdClear => 13
  | .pdProcess _ => 14
  | .avgClear => 15
  | .avgProcess _ => 16
  | .avgValue => 17
  | .avgDone => 18
  | .cntClear => 19
  | .cntProcess _ => 20
  | .cntCount => 21
  | .taskStart _ => 22
  | .taskStop _ => 23
  | .taskFinished _ => 24
  | .taskService1 _ => 25
  | .taskService2 _ => 26
  | .taskService3 _ => 27
  | .wiInit => 28
  | .wiStartSample _ => 29
  | .wiAbort => 30
  | .wiService => 31
  | .wiGetMph => 32
  | .wiGetDir => 33
  | .wiAck => 34
  | .emuService => 35
  | .emuOnComplete => 36
  | .emuBuildFrame => 37
  | .emuWriteBit _ => 38
  | .evTick => 39
  | .evEdge => 40
  | .csrRead _ => 41

/-- The word of an operation equals the match of the operation's own row of R85 in every bit of the row's mask. -/
def EncodesItsRow.Statement (i : Instr) : Prop :=
  ∃ r, opcodeRows[EncodesItsRow.row i]? = some r ∧ r.holds (encode i) = true

/-- A word holds a row whose mask is bits [15:8] when those bits are the row's. -/
theorem commandWord_row (u v : Byte) : OpcodeRow.holds ⟨commandWord u 0, 0xFF00⟩ (commandWord u v) = true := by
  simp only [OpcodeRow.holds, commandWord, beq_iff_eq]
  rw [show (0xFF00 : Word) = BitVec.allOnes 8 ++ 0x00#8 from rfl, BitVec.and_append,
    BitVec.and_allOnes, BitVec.and_zero]
  rfl

theorem EncodesItsRow.sysNop : EncodesItsRow.Statement .sysNop := ⟨_, rfl, rfl⟩

theorem EncodesItsRow.sysCli : EncodesItsRow.Statement .sysCli := ⟨_, rfl, rfl⟩

theorem EncodesItsRow.sysSei : EncodesItsRow.Statement .sysSei := ⟨_, rfl, rfl⟩

theorem EncodesItsRow.scRegister (sink : BitVec 2) (ch : Channel) : EncodesItsRow.Statement (.scRegister sink ch) := by
  refine ⟨_, rfl, ?_⟩
  revert sink ch
  decide

theorem EncodesItsRow.scUnregister (sink : BitVec 2) : EncodesItsRow.Statement (.scUnregister sink) := by
  refine ⟨_, rfl, ?_⟩
  revert sink
  decide

theorem EncodesItsRow.adcSelect (ch : Channel) : EncodesItsRow.Statement (.adcSelect ch) := by
  refine ⟨_, rfl, ?_⟩
  revert ch
  decide

theorem EncodesItsRow.adcStart : EncodesItsRow.Statement .adcStart := ⟨_, rfl, rfl⟩

theorem EncodesItsRow.adcReady : EncodesItsRow.Statement .adcReady := ⟨_, rfl, rfl⟩

theorem EncodesItsRow.adcRead : EncodesItsRow.Statement .adcRead := ⟨_, rfl, rfl⟩

theorem EncodesItsRow.maClear : EncodesItsRow.Statement .maClear := ⟨_, rfl, rfl⟩

theorem EncodesItsRow.maPush (v : Byte) : EncodesItsRow.Statement (.maPush v) := ⟨_, rfl, commandWord_row _ _⟩

theorem EncodesItsRow.maSum : EncodesItsRow.Statement .maSum := ⟨_, rfl, rfl⟩

theorem EncodesItsRow.maAverage : EncodesItsRow.Statement .maAverage := ⟨_, rfl, rfl⟩

theorem EncodesItsRow.pdClear : EncodesItsRow.Statement .pdClear := ⟨_, rfl, rfl⟩

theorem EncodesItsRow.pdProcess (v : Byte) : EncodesItsRow.Statement (.pdProcess v) := ⟨_, rfl, commandWord_row _ _⟩

theorem EncodesItsRow.avgClear : EncodesItsRow.Statement .avgClear := ⟨_, rfl, rfl⟩

theorem EncodesItsRow.avgProcess (v : Byte) : EncodesItsRow.Statement (.avgProcess v) := ⟨_, rfl, commandWord_row _ _⟩

theorem EncodesItsRow.avgValue : EncodesItsRow.Statement .avgValue := ⟨_, rfl, rfl⟩

theorem EncodesItsRow.avgDone : EncodesItsRow.Statement .avgDone := ⟨_, rfl, rfl⟩

theorem EncodesItsRow.cntClear : EncodesItsRow.Statement .cntClear := ⟨_, rfl, rfl⟩

theorem EncodesItsRow.cntProcess (v : Byte) : EncodesItsRow.Statement (.cntProcess v) := ⟨_, rfl, commandWord_row _ _⟩

theorem EncodesItsRow.cntCount : EncodesItsRow.Statement .cntCount := ⟨_, rfl, rfl⟩

theorem EncodesItsRow.taskStart (task : BitVec 2) : EncodesItsRow.Statement (.taskStart task) := by
  refine ⟨_, rfl, ?_⟩
  revert task
  decide

theorem EncodesItsRow.taskStop (task : BitVec 2) : EncodesItsRow.Statement (.taskStop task) := by
  refine ⟨_, rfl, ?_⟩
  revert task
  decide

theorem EncodesItsRow.taskFinished (task : BitVec 2) : EncodesItsRow.Statement (.taskFinished task) := by
  refine ⟨_, rfl, ?_⟩
  revert task
  decide

theorem EncodesItsRow.taskService1 (v : Byte) : EncodesItsRow.Statement (.taskService1 v) := ⟨_, rfl, commandWord_row _ _⟩

theorem EncodesItsRow.taskService2 (v : Byte) : EncodesItsRow.Statement (.taskService2 v) := ⟨_, rfl, commandWord_row _ _⟩

theorem EncodesItsRow.taskService3 (v : Byte) : EncodesItsRow.Statement (.taskService3 v) := ⟨_, rfl, commandWord_row _ _⟩

theorem EncodesItsRow.wiInit : EncodesItsRow.Statement .wiInit := ⟨_, rfl, rfl⟩

theorem EncodesItsRow.wiStartSample (b : Bool) : EncodesItsRow.Statement (.wiStartSample b) := by
  refine ⟨_, rfl, ?_⟩
  revert b
  decide

theorem EncodesItsRow.wiAbort : EncodesItsRow.Statement .wiAbort := ⟨_, rfl, rfl⟩

theorem EncodesItsRow.wiService : EncodesItsRow.Statement .wiService := ⟨_, rfl, rfl⟩

theorem EncodesItsRow.wiGetMph : EncodesItsRow.Statement .wiGetMph := ⟨_, rfl, rfl⟩

theorem EncodesItsRow.wiGetDir : EncodesItsRow.Statement .wiGetDir := ⟨_, rfl, rfl⟩

theorem EncodesItsRow.wiAck : EncodesItsRow.Statement .wiAck := ⟨_, rfl, rfl⟩

theorem EncodesItsRow.emuService : EncodesItsRow.Statement .emuService := ⟨_, rfl, rfl⟩

theorem EncodesItsRow.emuOnComplete : EncodesItsRow.Statement .emuOnComplete := ⟨_, rfl, rfl⟩

theorem EncodesItsRow.emuBuildFrame : EncodesItsRow.Statement .emuBuildFrame := ⟨_, rfl, rfl⟩

theorem EncodesItsRow.emuWriteBit (b : Bool) : EncodesItsRow.Statement (.emuWriteBit b) := by
  refine ⟨_, rfl, ?_⟩
  revert b
  decide

theorem EncodesItsRow.evTick : EncodesItsRow.Statement .evTick := ⟨_, rfl, rfl⟩

theorem EncodesItsRow.evEdge : EncodesItsRow.Statement .evEdge := ⟨_, rfl, rfl⟩

theorem EncodesItsRow.csrRead (a : Byte) : EncodesItsRow.Statement (.csrRead a) := ⟨_, rfl, commandWord_row _ _⟩

end Sys2Proof.Laws
end

