-- ==== Sys2Proof/Laws/Ring.lean ====
section
/-!
SUPPORT. The moving-average ring, the block's only indexed storage (10_state.md R53): every operation that writes it
keeps it sound (10_state.md R55 (d), 20_memory.md R75).
-/

namespace Sys2Proof.Machine

/-- Clearing gives a sound ring. -/
theorem maClear_ring (s : State) (h : 1 ≤ s.cfg.maWidth.toNat) : RingSound s.cfg (maClear s).ma := by
  refine ⟨by simp [maClear], ?_, by simp [maClear], ?_⟩
  · show (0#8).toNat < _
    simp; omega
  · simp [maClear, List.map_replicate]

/-- Replacing an entry of a list of numbers changes its sum by the difference. -/
theorem sum_set (l : List Nat) (i v old : Nat) (h : l[i]? = some old) :
    (l.set i v).sum + old = l.sum + v := by
  induction l generalizing i with
  | nil => simp at h
  | cons a l ih =>
    cases i with
    | zero => simp at h; subst h; simp; omega
    | succ i => simp at h; have := ih i h; simp; omega

/-- A list of bytes sums to at most 255 each. -/
theorem sum_bytes_le (l : List Byte) : (l.map BitVec.toNat).sum ≤ 255 * l.length := by
  induction l with
  | nil => simp
  | cons a l ih => have := a.isLt; simp at *; omega

/-- The sum of a sound ring never exceeds 255·W (41_filters.md R131). -/
theorem RingSound.sum_le {p : Params} {m : MovingAverage} (h : RingSound p m) :
    m.sum.toNat ≤ 255 * p.maWidth.toNat := by
  obtain ⟨h1, -, -, h4⟩ := h
  rw [h4, ← h1]
  exact sum_bytes_le m.buf

/-- A push on a sound ring, in natural numbers (41_filters.md R131). -/
theorem maPush_sum (v old : Byte) (s : State) (h : RingSound s.cfg s.ma) (ho : s.ma.buf[s.ma.idx.toNat]? = some old) :
    (maPush v s).ma.sum.toNat + old.toNat = s.ma.sum.toNat + v.toNat := by
  have hle : ((s.ma.buf.set s.ma.idx.toNat v).map BitVec.toNat).sum ≤ 255 * s.ma.buf.length := by
    simpa using sum_bytes_le (s.ma.buf.set s.ma.idx.toNat v)
  have hs : ((s.ma.buf.set s.ma.idx.toNat v).map BitVec.toNat).sum + old.toNat = s.ma.sum.toNat + v.toNat := by
    rw [h.2.2.2, List.map_set]
    exact sum_set _ _ _ _ (by simp [ho])
  have hg : s.ma.buf.getD s.ma.idx.toNat 0 = old := by simp [List.getD, ho]
  have hw := s.cfg.maWidth.isLt
  have hv := v.isLt
  have hlen := h.1
  have ho' := old.isLt
  have e1 : (v.setWidth 16).toNat = v.toNat := by simp; omega
  have e2 : (old.setWidth 16).toNat = old.toNat := by simp; omega
  simp only [maPush, sampleAddend, hg, BitVec.toNat_add, BitVec.toNat_sub, e1, e2]
  have := s.ma.sum.isLt
  omega

/-- A push keeps the ring sound. -/
theorem maPush_ring (v : Byte) (s : State) (h : RingSound s.cfg s.ma) : RingSound s.cfg (maPush v s).ma := by
  have hi : s.ma.idx.toNat < s.ma.buf.length := by rw [h.1]; exact h.2.1
  have ho : s.ma.buf[s.ma.idx.toNat]? = some s.ma.buf[s.ma.idx.toNat] := by simp [hi]
  have hw := s.cfg.maWidth.isLt
  have hp : 0 < s.cfg.maWidth.toNat := by have := h.2.1; omega
  refine ⟨by simp [maPush, h.1], ?_, ?_, ?_⟩
  · have : (s.ma.idx.toNat + 1) % s.cfg.maWidth.toNat < s.cfg.maWidth.toNat := Nat.mod_lt _ hp
    simp only [maPush, BitVec.toNat_ofNat]
    omega
  · simp only [maPush, BitVec.toNat_ofNat]
    omega
  · have h1 := maPush_sum v _ s h ho
    have h2 : ((maPush v s).ma.buf.map BitVec.toNat).sum + (s.ma.buf[s.ma.idx.toNat]).toNat =
        s.ma.sum.toNat + v.toNat := by
      rw [h.2.2.2]
      simp only [maPush, List.map_set]
      exact sum_set _ _ _ _ (by simp [hi])
    omega

end Sys2Proof.Machine
end

