-- ==== Sys2Proof/Laws/Timing.lean ====
section
/-!
SUPPORT. For each part of a time-base step (20_memory.md R70) and for an environment step (R71), all it can change.
-/

namespace Sys2Proof.Machine

/-- Part 1: the clocks. -/
theorem advanceClocks_changes_only (s : State) :
    advanceClocks s =
      { s with time := { s.time with
          timeUs := s.time.timeUs + 1
          msPresc := if s.time.msPresc + 1 = 1000 then 0 else s.time.msPresc + 1
          timeMs := if s.time.msPresc + 1 = 1000 then s.time.timeMs + 1 else s.time.timeMs } } := by
  unfold advanceClocks
  dsimp only
  split <;> rfl

/-- Part 2: the conversion; the channel it latched stays. -/
theorem advanceAdc_changes_only (s : State) :
    advanceAdc s =
      { s with adc := { s.adc with
          busy := (advanceAdc s).adc.busy, remain := (advanceAdc s).adc.remain, result := (advanceAdc s).adc.result } } := by
  unfold advanceAdc
  split
  · dsimp only
    split <;> rfl
  · rfl

/-- Part 3: the finished flags of tasks 1 and 3. -/
theorem advanceTasks_changes_only (s : State) :
    advanceTasks s =
      { s with tasks := { s.tasks with t1 := (advanceTasks s).tasks.t1, t3 := (advanceTasks s).tasks.t3 } } := rfl

/-- Part 4: the phase of the tick timer, its request and its overrun bit. -/
theorem advanceTick_changes_only (s : State) :
    advanceTick s =
      { s with
        time := { s.time with tickCnt := (advanceTick s).time.tickCnt }
        irq := { s.irq with tickPending := (advanceTick s).irq.tickPending, tickOvr := (advanceTick s).irq.tickOvr } } := by
  unfold advanceTick
  dsimp only
  split
  · unfold requestTick
    split <;> rfl
  · rfl

/-- Part 5: the emulator but for its frame and its start time, and RESP. -/
theorem advanceBitWriter_changes_only (s : State) :
    advanceBitWriter s =
      { s with
        emu := { s.emu with
          state := (advanceBitWriter s).emu.state, writing := (advanceBitWriter s).emu.writing
          bitIdx := (advanceBitWriter s).emu.bitIdx, txd := (advanceBitWriter s).emu.txd
          ind := (advanceBitWriter s).emu.ind }
        resp := (advanceBitWriter s).resp } := by
  unfold advanceBitWriter
  split
  · dsimp only
    split
    · rfl
    · unfold emuFrameCompletion
      dsimp only
      split <;> rfl
  · rfl

/-- With no frame on the wire, part 5 does nothing. -/
theorem advanceBitWriter_idle (s : State) (h : s.emu.writing = false) : advanceBitWriter s = s := by
  simp [advanceBitWriter, h]

/-- An environment step changes the pins, and the edge request or its overrun bit. -/
theorem envStep_changes_only (e : EnvStep) (s : State) :
    envStep e s =
      { s with
        pins := (envStep e s).pins
        irq := { s.irq with edgePending := (envStep e s).irq.edgePending, edgeOvr := (envStep e s).irq.edgeOvr } } := by
  cases e with
  | pulse level =>
    unfold envStep
    dsimp only
    split
    · unfold requestEdge
      split <;> rfl
    · rfl
  | _ => rfl

/-- One more time-base step at the end. -/
theorem timeSteps_succ (n : Nat) (s : State) : timeSteps (n + 1) s = timeStep (timeSteps n s) := by
  induction n generalizing s with
  | zero => rfl
  | succ n ih => exact ih (timeStep s)

end Sys2Proof.Machine
end

