-- ==== Sys2Proof/Machine/Assembly.lean ====
section
/-!
DEFINITION. How an operation is written (30_encoding.md R88) and what the pseudo-instructions stand for (R89). The block
sees words only: nothing of the step reads this file.
-/

namespace Sys2Proof.Machine

/-- The CSR names of 10_state.md R49 to R52. -/
def csrNames : List (Byte × String) :=
  [(0x00, "SC_STATUS"), (0x01, "SC_SETTLE"), (0x02, "SC_STALE"), (0x03, "ADC_RESULT"), (0x04, "MA_SUM"),
   (0x05, "MA_POS"), (0x06, "PD_STATUS"), (0x07, "AVG_SUM"), (0x08, "AVG_STATUS"), (0x09, "CNT_COUNT")] ++
  [(0x0A, "TASK_STATUS"), (0x0B, "T1_PULSES"), (0x0C, "T1_START_LO"), (0x0D, "T1_START_HI"), (0x0E, "T3_START_LO"),
   (0x0F, "T3_START_HI"), (0x10, "WI_STATUS"), (0x11, "WI_PCAP"), (0x12, "WI_DCAP"), (0x13, "WI_LAST_PC"),
   (0x14, "WI_LAST_DIR_RAW")] ++
  [(0x18, "EMU_STATUS"), (0x19, "EMU_FRAME0"), (0x1A, "EMU_FRAME1"), (0x1B, "EMU_FRAME2"), (0x1C, "TIME_US_LO"),
   (0x1D, "TIME_US_HI"), (0x1E, "TIME_MS_LO"), (0x1F, "TIME_MS_HI"), (0x20, "FAULT"), (0x21, "DIAG"),
   (0x22, "FAULT_CMD")] ++
  [(0x30, "P_SETTLE_K"), (0x31, "P_TICK_US"), (0x32, "P_ADC_CONV_US"), (0x33, "P_MA_WIDTH"), (0x34, "P_PD_LOW"),
   (0x35, "P_PD_THRESH"), (0x36, "P_PD_DEBOUNCE"), (0x37, "P_AVG_N"), (0x38, "P_SPEED_PERIOD_MS"), (0x39, "P_BIT_US"),
   (0x3A, "P_CH"), (0x3B, "P_MODE"), (0x3C, "P_MA_WMAX")]

/-- A number as an operand. DESIGN CHOICE (entry 19), safe: R88 names no base, and the model writes decimal. -/
def numberText (n : Nat) : String := toString n

/-- A sink operand (R88); an illegal one has no name and is written as its number. -/
def sinkText (sink : BitVec 2) : String :=
  match sink.toNat with
  | 0 => "none"
  | 1 => "speed"
  | 2 => "dir"
  | n => numberText n

/-- A task operand (R88); task 0, which is illegal, is written as its number. -/
def taskText (task : BitVec 2) : String :=
  match task.toNat with
  | 1 => "speed"
  | 2 => "dir"
  | 3 => "edge"
  | n => numberText n

/-- The callback operand (R88). -/
def callbackText (b : Bool) : String := if b then "host" else "emu"

/-- A CSR operand: its name, or the address where it has none (R88). -/
def csrText (a : Byte) : String :=
  match csrNames.lookup a with
  | some name => name
  | none => numberText a.toNat

/-- An operation as it is written (R88). -/
def assemblyText : Instr → String
  | .sysNop => "sys.nop"
  | .sysCli => "sys.cli"
  | .sysSei => "sys.sei"
  | .scRegister sink ch => "sc.register " ++ sinkText sink ++ ", " ++ numberText ch.toNat
  | .scUnregister sink => "sc.unregister " ++ sinkText sink
  | .adcSelect ch => "adc.select " ++ numberText ch.toNat
  | .adcStart => "adc.start"
  | .adcReady => "adc.ready"
  | .adcRead => "adc.read"
  | .maClear => "ma.clear"
  | .maPush v => "ma.push " ++ numberText v.toNat
  | .maSum => "ma.sum"
  | .maAverage => "ma.average"
  | .pdClear => "pd.clear"
  | .pdProcess v => "pd.process " ++ numberText v.toNat
  | .avgClear => "avg.clear"
  | .avgProcess v => "avg.process " ++ numberText v.toNat
  | .avgValue => "avg.value"
  | .avgDone => "avg.done"
  | .cntClear => "cnt.clear"
  | .cntProcess v => "cnt.process " ++ numberText v.toNat
  | .cntCount => "cnt.count"
  | .taskStart task => "task.start " ++ taskText task
  | .taskStop task => "task.stop " ++ taskText task
  | .taskFinished task => "task.finished " ++ taskText task
  | .taskService1 v => "task.service1 " ++ numberText v.toNat
  | .taskService2 v => "task.service2 " ++ numberText v.toNat
  | .taskService3 v => "task.service3 " ++ numberText v.toNat
  | .wiInit => "wi.init"
  | .wiStartSample b => "wi.start_sample " ++ callbackText b
  | .wiAbort => "wi.abort"
  | .wiService => "wi.service"
  | .wiGetMph => "wi.get_mph"
  | .wiGetDir => "wi.get_dir"
  | .wiAck => "wi.ack"
  | .emuService => "emu.service"
  | .emuOnComplete => "emu.on_complete"
  | .emuBuildFrame => "emu.build_frame"
  | .emuWriteBit b => "emu.write_bit " ++ (if b then "1" else "0")
  | .evTick => "ev.tick"
  | .evEdge => "ev.edge"
  | .csrRead a => "csr.read " ++ csrText a

/-- The pseudo-instructions of R89. -/
inductive PseudoInstr where
  | critBegin
  | critEnd
  | taskService (t : TaskId) (v : Byte)
  | pdFeed (v : Byte) (n : Nat)
  | avgFeed (v : Byte) (n : Nat)
  | maFill (v : Byte) (n : Nat)
  | csrRead32 (lo : Byte)
  | emuPoll
  | wiPoll
deriving DecidableEq, Repr

/-- The operations a pseudo-instruction stands for (R89). -/
def expandPseudo : PseudoInstr → List Instr
  | .critBegin => [.sysCli]
  | .critEnd => [.sysSei]
  | .taskService .speed v => [.taskService1 v]
  | .taskService .direction v => [.taskService2 v]
  | .taskService .edge v => [.taskService3 v]
  | .pdFeed v n => List.replicate n (.pdProcess v)
  | .avgFeed v n => List.replicate n (.avgProcess v)
  | .maFill v n => List.replicate n (.maPush v)
  | .csrRead32 lo => [.csrRead lo, .csrRead (lo + 1)]
  | .emuPoll => [.emuService]
  | .wiPoll => [.wiService]

end Sys2Proof.Machine
end

