-- ==== Sys2Proof/Tests/Slice0.lean ====
section
/-!
SUPPORT. Small tests: the operand checks, the decoding of words written out from 30_encoding.md R81 to R85, one or two
steps per operation with results from 95_test_vectors.md and the rules' own examples, and a witness for the hypotheses
of each statement.
-/

open Sys2Proof Sys2Proof.Machine Sys2Proof.Claims

namespace Sys2Proof.Tests

/-- The next state of an answer; the reset state if there is none. -/
def nextOf (r : Result) : State :=
  match r with
  | .next t => t
  | _ => State.reset

/-- An answer is a next state. -/
def goesOn (r : Result) : Bool :=
  match r with
  | .next _ => true
  | _ => false

/-- The state after one operation. -/
def after (i : Instr) (s : State) : State := nextOf (exec i s)

/-- The reset state, changed. -/
def with_ (f : State → State) : State := f State.reset

/-! ## Operand checks (30_encoding.md R86 (d)) -/

theorem test_register_sink_0_ill_formed : (Instr.scRegister 0 3).wellFormed = false := by decide
theorem test_register_sink_3_ill_formed : (Instr.scRegister 3 0).wellFormed = false := by decide
theorem test_unregister_sink_3_ill_formed : (Instr.scUnregister 3).wellFormed = false := by decide
theorem test_start_task_0_ill_formed : (Instr.taskStart 0).wellFormed = false := by decide
theorem test_stop_task_0_ill_formed : (Instr.taskStop 0).wellFormed = false := by decide
theorem test_finished_task_0_ill_formed : (Instr.taskFinished 0).wellFormed = false := by decide
theorem test_unregister_none_well_formed : (Instr.scUnregister 0).wellFormed = true := by decide

/-! ## Decoding: each word is UNIT, OP and IMM of R81, with the format's fields of R82 -/

theorem test_decode_sysNop : decode 0b0000_0000_00000000 = .ok .sysNop := by decide
theorem test_decode_sysCli : decode 0b0000_0001_00000000 = .ok .sysCli := by decide
theorem test_decode_sysSei : decode 0b0000_0010_00000000 = .ok .sysSei := by decide
/-- sink 2, ch 3: IMM = 000 011 10 (R88: `sc.register dir, 3` = 0x100E). -/
theorem test_decode_scRegister : decode 0b0001_0000_000_011_10 = .ok (.scRegister 2 3) := by decide
theorem test_decode_scUnregister : decode 0b0001_0001_000000_01 = .ok (.scUnregister 1) := by decide
theorem test_decode_adcSelect : decode 0b0010_0000_00000_110 = .ok (.adcSelect 6) := by decide
theorem test_decode_adcStart : decode 0b0010_0001_00000000 = .ok .adcStart := by decide
theorem test_decode_adcReady : decode 0b0010_0010_00000000 = .ok .adcReady := by decide
theorem test_decode_adcRead : decode 0b0010_0011_00000000 = .ok .adcRead := by decide
theorem test_decode_maClear : decode 0b0011_0000_00000000 = .ok .maClear := by decide
theorem test_decode_maPush : decode 0b0011_0001_10000001 = .ok (.maPush 129) := by decide
theorem test_decode_maSum : decode 0b0011_0010_00000000 = .ok .maSum := by decide
theorem test_decode_maAverage : decode 0b0011_0011_00000000 = .ok .maAverage := by decide
theorem test_decode_pdClear : decode 0b0100_0000_00000000 = .ok .pdClear := by decide
theorem test_decode_pdProcess : decode 0b0100_0001_01000000 = .ok (.pdProcess 64) := by decide
theorem test_decode_avgClear : decode 0b0101_0000_00000000 = .ok .avgClear := by decide
theorem test_decode_avgProcess : decode 0b0101_0001_00010011 = .ok (.avgProcess 19) := by decide
theorem test_decode_avgValue : decode 0b0101_0010_00000000 = .ok .avgValue := by decide
theorem test_decode_avgDone : decode 0b0101_0011_00000000 = .ok .avgDone := by decide
theorem test_decode_cntClear : decode 0b0110_0000_00000000 = .ok .cntClear := by decide
theorem test_decode_cntProcess : decode 0b0110_0001_00000101 = .ok (.cntProcess 5) := by decide
theorem test_decode_cntCount : decode 0b0110_0010_00000000 = .ok .cntCount := by decide
theorem test_decode_taskStart : decode 0b0111_0000_000000_01 = .ok (.taskStart 1) := by decide
theorem test_decode_taskStop : decode 0b0111_0001_000000_10 = .ok (.taskStop 2) := by decide
theorem test_decode_taskFinished : decode 0b0111_0010_000000_11 = .ok (.taskFinished 3) := by decide
theorem test_decode_taskService1 : decode 0b0111_0101_00001010 = .ok (.taskService1 10) := by decide
theorem test_decode_taskService2 : decode 0b0111_0110_00001001 = .ok (.taskService2 9) := by decide
theorem test_decode_taskService3 : decode 0b0111_0111_11111111 = .ok (.taskService3 255) := by decide
theorem test_decode_wiInit : decode 0b1000_0000_00000000 = .ok .wiInit := by decide
theorem test_decode_wiStartSample : decode 0b1000_0001_0000000_1 = .ok (.wiStartSample true) := by decide
theorem test_decode_wiAbort : decode 0b1000_0010_00000000 = .ok .wiAbort := by decide
theorem test_decode_wiService : decode 0b1000_0011_00000000 = .ok .wiService := by decide
theorem test_decode_wiGetMph : decode 0b1000_0100_00000000 = .ok .wiGetMph := by decide
theorem test_decode_wiGetDir : decode 0b1000_0101_00000000 = .ok .wiGetDir := by decide
theorem test_decode_wiAck : decode 0b1000_0110_00000000 = .ok .wiAck := by decide
theorem test_decode_emuService : decode 0b1001_0000_00000000 = .ok .emuService := by decide
theorem test_decode_emuOnComplete : decode 0b1001_0001_00000000 = .ok .emuOnComplete := by decide
theorem test_decode_emuBuildFrame : decode 0b1001_0010_00000000 = .ok .emuBuildFrame := by decide
theorem test_decode_emuWriteBit : decode 0b1001_0011_0000000_1 = .ok (.emuWriteBit true) := by decide
theorem test_decode_evTick : decode 0b1110_0000_00000000 = .ok .evTick := by decide
theorem test_decode_evEdge : decode 0b1110_0001_00000000 = .ok .evEdge := by decide
theorem test_decode_csrRead : decode 0b1111_0000_00010000 = .ok (.csrRead 0x10) := by decide
theorem test_decode_reserved_unit : decode 0xD000 = .reject .reservedUnit := by decide
theorem test_decode_unlisted_op : decode 0x7300 = .reject .unlistedOp := by decide
theorem test_decode_reserved_imm_bit : decode 0x8102 = .reject .reservedImmBit := by decide
/-- The table's numbering is the block's: one 16-bit word. -/
theorem test_table_word : decodeTableWord 16 0x100E = some (.scRegister 2 3) := by decide

/-- R88's examples. -/
theorem test_assembly_text :
    [.scRegister 2 3, .csrRead 0x10, .adcSelect 3, .evTick].map assemblyText =
      ["sc.register dir, 3", "csr.read WI_STATUS", "adc.select 3", "ev.tick"] := by decide

/-- R89: a 32-bit read is two, low word first. -/
theorem test_expand_csrRead32 : expandPseudo (.csrRead32 0x1C) = [.csrRead 0x1C, .csrRead 0x1D] := by decide

/-! ## One step of each operation -/

/-- V-SYS-1. -/
theorem test_sysNop : after .sysNop (with_ fun s => { s with resp := 7 }) = State.reset := by decide

/-- V-SYS-2: SC_STATUS 0x0100. -/
theorem test_sysCli : csrRead (after .sysCli State.reset) 0x00 = 0x0100 := by decide

/-- V-SYS-3: one SYS.SEI opens the interrupts again. -/
theorem test_sysSei : (after .sysSei (with_ fun s => { s with irq := { s.irq with ie := false } })).irq.ie = true := by
  decide

/-- V-SC-5: `sc.register dir, 3` gives SC_STATUS 0x410E and SC_SETTLE 4. -/
theorem test_scRegister :
    csrRead (after (.scRegister 2 3) State.reset) 0x00 = 0x410E ∧
    csrRead (after (.scRegister 2 3) State.reset) 0x01 = 4 := by decide

/-- V-SC-5: word 0x1000 gives RESP 0xFFFF, FAULT 0x0001 and FAULT_CMD 0x1000. -/
theorem test_scRegister_illegal_sink :
    (after (.scRegister 0 0) State.reset).resp = 0xFFFF ∧
    csrRead (after (.scRegister 0 0) State.reset) 0x20 = 0x0001 ∧
    csrRead (after (.scRegister 0 0) State.reset) 0x22 = 0x1000 := by decide

/-- The state of V-SC-5 after `sc.register dir, 3`. -/
def registered : State :=
  with_ fun s => { s with sc := { s.sc with sink := .direction, desCh := 3, settle := 4 } }

/-- V-SC-5: another task's deregistration changes nothing. -/
theorem test_scUnregister_other : after (.scUnregister 1) registered = registered := by decide

/-- V-SC-5: SC_STATUS 0x410C. -/
theorem test_scUnregister : csrRead (after (.scUnregister 2) registered) 0x00 = 0x410C := by decide

/-- R100's example. -/
theorem test_adcSelect : (after (.adcSelect 3) State.reset).sc.curCh = 3 := by decide

/-- R101: the latched channel is the selected one. -/
theorem test_adcStart :
    (after .adcStart (with_ fun s => { s with sc := { s.sc with curCh := 3 } })).adc =
      { busy := true, remain := 100, convCh := 3, result := 0 } := by decide

/-- R102: 0 while the reset conversion runs, 1 once it has ended. -/
theorem test_adcReady :
    adcReady State.reset = false ∧
    adcReady (with_ fun s => { s with adc := { s.adc with busy := false } }) = true := by decide

/-- R103's example. -/
theorem test_adcRead : adcRead (with_ fun s => { s with adc := { s.adc with result := 0x80 } }) = 0x80 := by decide

/-- The moving average of V-MA-1 after three pushes of 1. -/
def threeOnes : State := with_ fun s => { s with ma := { buf := [1, 1, 1, 0], sum := 3, idx := 3, fill := 3 } }

/-- R130's example. -/
theorem test_maClear : csrRead (after .maClear threeOnes) 0x04 = 0 ∧ csrRead (after .maClear threeOnes) 0x05 = 0 := by
  decide

/-- V-MA-1: the fourth push gives sum 4 and MA_POS 0x0400. -/
theorem test_maPush_fills :
    csrRead (after (.maPush 1) threeOnes) 0x04 = 4 ∧ csrRead (after (.maPush 1) threeOnes) 0x05 = 0x0400 := by decide

/-- V-MA-3b: the push of 50 evicts the 10 of the second push; sum 140, MA_POS 0x0402. -/
theorem test_maPush_evicts_oldest :
    (after (.maPush 50)
      (with_ fun s => { s with ma := { buf := [40, 10, 20, 30], sum := 100, idx := 1, fill := 4 } })).ma =
      { buf := [40, 50, 20, 30], sum := 140, idx := 2, fill := 4 } := by decide

/-- V-MA-2: 1020. -/
theorem test_maSum : (after .maSum (with_ fun s => { s with ma := { s.ma with sum := 1020 } })).resp = 0x03FC := by decide

/-- R133's example, and V-MA-2: 10 / 4 is 2, 1020 / 4 is 255. -/
theorem test_maAverage :
    (after .maAverage (with_ fun s => { s with ma := { s.ma with sum := 10 } })).resp = 2 ∧
    (after .maAverage (with_ fun s => { s with ma := { s.ma with sum := 1020 } })).resp = 255 := by decide

/-- R140's example. -/
theorem test_pdClear :
    csrRead (after .pdClear { threeOnes with pd := { deb := 5, asserted := true, fired := true } }) 0x06 = 0 ∧
    csrRead (after .pdClear { threeOnes with pd := { deb := 5, asserted := true, fired := true } }) 0x04 = 0 := by decide

/-- V-PD-1, sample 6: answer 3, then (sum, idx, fill, deb) = (4, 3, 4, 6), and one pulse. -/
theorem test_pdProcess_fires :
    (fun t : State => (t.resp, t.ma.sum, t.ma.idx, t.ma.fill, t.pd.deb, t.tasks.t1Pulses))
      (after (.pdProcess 10)
        (with_ fun s => { s with ma := { buf := [1, 1, 0, 1], sum := 3, idx := 2, fill := 4 } })) =
      (3, 4, 3, 4, 6, 1) := by decide

/-- V-PD-4, sample 7: asserted without a fire, the counter goes from 6 to 5. -/
theorem test_pdProcess_debounces :
    (fun t : State => (t.resp, t.ma.sum, t.pd.deb, t.tasks.t1Pulses))
      (after (.pdProcess 10)
        (with_ fun s => { s with
          ma := { buf := [1, 1, 1, 1], sum := 4, idx := 3, fill := 4 }, pd := { deb := 6, asserted := true, fired := true } })) =
      (2, 4, 5, 0) := by decide

/-- The averager of V-AVG-1 after nine samples. -/
def nineSamples : State := with_ fun s => { s with avg := { sum := 126, count := 9, done := false } }

/-- The averager of V-AVG-1 after ten samples. -/
def tenSamples : State := with_ fun s => { s with avg := { sum := 145, count := 10, done := true } }

/-- R150's example. -/
theorem test_avgClear : csrRead (after .avgClear tenSamples) 0x08 = 0 := by decide

/-- V-AVG-1: the tenth sample gives AVG_SUM 145 and AVG_STATUS 0x010A. -/
theorem test_avgProcess_tenth : (after (.avgProcess 19) nineSamples).avg = tenSamples.avg := by decide

/-- V-AVG-1b: a sample after the last is ignored. -/
theorem test_avgProcess_ignored : (after (.avgProcess 255) tenSamples).avg = tenSamples.avg := by decide

/-- V-AVG-1: 14. -/
theorem test_avgValue : (after .avgValue tenSamples).resp = 14 := by decide

/-- V-F-6: RESP 0xFFFF, FAULT 0x0002, FAULT_CMD 0x5200. -/
theorem test_avgValue_not_done :
    (after .avgValue nineSamples).resp = 0xFFFF ∧ csrRead (after .avgValue nineSamples) 0x20 = 0x0002 ∧
    csrRead (after .avgValue nineSamples) 0x22 = 0x5200 := by decide

/-- R153's example. -/
theorem test_avgDone : (after .avgDone nineSamples).resp = 0 ∧ (after .avgDone tenSamples).resp = 1 := by decide

/-- V-CNT-3. -/
theorem test_cntClear : (after .cntClear (with_ fun s => { s with cntCount := 9 })).cntCount = 0 := by decide

/-- V-CNT-2: the count wraps. -/
theorem test_cntProcess : (after (.cntProcess 9) (with_ fun s => { s with cntCount := 255 })).cntCount = 0 := by decide

/-- V-CNT-1. -/
theorem test_cntCount : (after .cntCount (with_ fun s => { s with cntCount := 255 })).resp = 255 := by decide

/-- V-T-1: TASK_STATUS 0x0001, SC_STATUS 0x4005, SC_SETTLE 4, T1_START_LO 0x0001. -/
theorem test_taskStart_speed :
    [0x0A, 0x00, 0x01, 0x0C].map (csrRead (after (.taskStart 1)
      (with_ fun s => { s with time := { s.time with timeMs := 1 }, adc := { s.adc with busy := false } }))) =
      [0x0001, 0x4005, 0x0004, 0x0001] := by decide

/-- R170, task 3: an edge from before the window is dropped, and no sink is registered (V-T-8: TASK_STATUS 0x0010). -/
theorem test_taskStart_edge :
    (fun t : State => (t.irq.edgePending, t.sc.sink, t.cntCount, csrRead t 0x0A))
      (after (.taskStart 3) (with_ fun s => { s with irq := { s.irq with edgePending := true }, cntCount := 5 })) =
      (false, .none, 0, 0x0010) := by decide

/-- Task 1 running, its task the sink. -/
def speedRunning : State :=
  with_ fun s => { s with
    tasks := { s.tasks with t1 := ⟨true, false⟩ }, sc := { s.sc with sink := .speed, desCh := 1, settle := 4 } }

/-- V-T-4: TASK_STATUS 0x0002 and no sink. -/
theorem test_taskStop :
    (fun t : State => (csrRead t 0x0A, t.sc.sink))
      (after (.taskStop 1) { speedRunning with tasks := { speedRunning.tasks with t1 := ⟨true, true⟩ } }) =
      (0x0002, .none) := by decide

/-- V-T-3. -/
theorem test_taskFinished :
    (after (.taskFinished 1) { speedRunning with tasks := { speedRunning.tasks with t1 := ⟨true, true⟩ } }).resp = 1 ∧
    (after (.taskFinished 1) speedRunning).resp = 0 := by decide

/-- R175: a running task 1 passes the sample to its detector; the answer is 0. -/
theorem test_taskService1 :
    (fun t : State => (t.ma.sum, t.resp)) (after (.taskService1 10) speedRunning) = (1, 0) := by decide

/-- V-T-6: a stopped task 2 ignores the sample. -/
theorem test_taskService2_stopped : after (.taskService2 9) State.reset = State.reset := by decide

/-- V-T-7: the tenth sample finishes task 2 (TASK_STATUS 0x000C). -/
theorem test_taskService2_finishes :
    csrRead (after (.taskService2 19) { nineSamples with tasks := { nineSamples.tasks with t2 := ⟨true, false⟩ } }) 0x0A =
      0x000C := by decide

/-- V-T-8: one of the three samples. -/
theorem test_taskService3 :
    (after (.taskService3 0) (with_ fun s => { s with tasks := { s.tasks with t3 := ⟨true, false⟩ } })).cntCount = 1 := by
  decide

/-- V-WI-2: WI_STATUS 0x0008. -/
theorem test_wiInit : csrRead (after .wiInit State.reset) 0x10 = 0x0008 := by decide

/-- The state of V-WI-2. -/
def initialised : State := with_ fun s => { s with wi := { s.wi with init := true } }

/-- V-WI-1: rejected before WI.INIT. -/
theorem test_wiStartSample_uninitialised : after (.wiStartSample true) State.reset = State.reset := by decide

/-- V-WI-3: accepted, WI_STATUS 0x0039. -/
theorem test_wiStartSample :
    (after (.wiStartSample true) initialised).resp = 1 ∧ csrRead (after (.wiStartSample true) initialised) 0x10 = 0x0039 := by
  decide

/-- V-WI-7: WI_STATUS 0x0008, TASK_STATUS 0, SC_STATUS 0x4104. -/
theorem test_wiAbort :
    [0x10, 0x0A, 0x00].map (csrRead (after .wiAbort
      { speedRunning with wi := { speedRunning.wi with
          init := true, cbValid := true, cbTarget := .host, state := .samplingSpeed } })) =
      [0x0008, 0x0000, 0x4104] := by decide

/-- V-WI-6: WI_STATUS 0x003A, TASK_STATUS 0x0001, SC_STATUS 0x4105. -/
theorem test_wiService_opens_window :
    [0x10, 0x0A, 0x00].map (csrRead (after .wiService
      { initialised with wi := { initialised.wi with cbValid := true, cbTarget := .host, state := .newSample } })) =
      [0x003A, 0x0001, 0x4105] := by decide

/-- P4: an averager sum of 776 over 10 samples is captured as 0x0134, and the state is SEND_FRAME. -/
theorem test_wiService_captures_direction :
    (fun t : State => (t.wi.dcap, t.wi.state))
      (after .wiService { initialised with
        avg := { sum := 776, count := 10, done := true }
        tasks := { initialised.tasks with t2 := ⟨true, true⟩ }
        wi := { initialised.wi with cbValid := true, state := .samplingDirection } }) =
      (0x0134, .sendFrame) := by decide

/-- V-WI-10: 10 pulses in 2250 ms are 10.00 mph, 255 in 2000 ms are 286.88. -/
theorem test_wiGetMph :
    (after .wiGetMph (with_ fun s => { s with wi := { s.wi with lastPc := 10 } })).resp = 1000 ∧
    (after .wiGetMph (with_ fun s => { s with
      cfg := { s.cfg with speedPeriodMs := 2000 }, wi := { s.wi with lastPc := 255 } })).resp = 28688 := by decide

/-- V-WI-11: 256 is E, 993 wraps to N, and the sum of 65504 + 31 does not wrap at 16 bits. -/
theorem test_wiGetDir :
    [256, 993, 65504].map
      (fun raw => (after .wiGetDir (with_ fun s => { s with wi := { s.wi with lastDirRaw := raw } })).resp) =
      [4, 0, 15] := by decide

/-- R201's example. -/
theorem test_wiAck : (after .wiAck (with_ fun s => { s with wi := { s.wi with hostDone := true } })).wi.hostDone = false := by
  decide

/-- V-EMU-8: DISABLED with DTR low reads 0x000D after EMU.SERVICE. -/
theorem test_emuService_enable :
    csrRead (after .emuService (with_ fun s => { s with pins := { s.pins with dtr := false } })) 0x18 = 0x000D := by decide

/-- V-EMU-8: SAMPLING with DTR high reads 0x0014. -/
theorem test_emuService_release :
    csrRead (after .emuService (with_ fun s => { s with emu := { s.emu with state := .sampling, ind := true } })) 0x18 =
      0x0014 := by decide

/-- R226: SENDING, no frame begun. -/
theorem test_emuOnComplete :
    (fun t : State => (t.emu.state, t.emu.writing, t.emu.ind)) (after .emuOnComplete State.reset) =
      (.sending, false, true) := by decide

/-- The EMU_FRAME words of a reading. -/
def frameWords (raw : Word) (pc : Byte) (period : Word) : List Word :=
  [0x19, 0x1A, 0x1B].map (csrRead (after .emuBuildFrame (with_ fun s => { s with
    cfg := { s.cfg with speedPeriodMs := period }, wi := { s.wi with lastPc := pc, lastDirRaw := raw } })))

/-- V-EMU-1 to V-EMU-4. -/
theorem test_emuBuildFrame :
    frameWords 256 10 2250 = [0xA564, 0xA99F, 0x0205] ∧ frameWords 308 10 2250 = [0xA544, 0xAB7F, 0x0205] ∧
    frameWords 0 0 2250 = [0xFFE4, 0x01FF, 0x0200] ∧ frameWords 960 255 2250 = [0x1604, 0x9E37, 0x028E] := by decide

/-- V-EMU-5 to V-EMU-7. -/
theorem test_emuBuildFrame_more :
    frameWords 512 1 2250 = [0xF6E4, 0x907F, 0x0200] ∧ frameWords 768 255 2000 = [0xFA64, 0x5995, 0x02A0] ∧
    frameWords 0 7 2250 = [0xC1E4, 0xE1FF, 0x0203] := by decide

/-- R231's example. -/
theorem test_emuWriteBit : (after (.emuWriteBit false) State.reset).emu.txd = false := by decide

/-- R110's example, with task 2 running: a conversion of channel 3 starts and the sample 0x42 is averaged. -/
theorem test_evTick :
    (fun t : State => (t.adc.busy, t.adc.convCh, t.avg.sum, t.irq.tickPending))
      (after .evTick (with_ fun s => { s with
        irq := { s.irq with tickPending := true }
        sc := { s.sc with sink := .direction, desCh := 3, curCh := 3 }
        adc := { s.adc with busy := false, result := 0x42 }
        tasks := { s.tasks with t2 := ⟨true, false⟩ } })) = (true, 3, 0x42, false) := by decide

/-- V-SC-1, tick 6000: under LITERAL the old channel's sample is delivered as the multiplexer is switched; under EARLY the
tick of 2000 switches it and discards. -/
theorem test_evTick_mux_order :
    (fun t : State => (t.sc.curCh, t.adc.convCh, t.avg.sum)) (after .evTick (with_ fun s => { s with
        sc := { s.sc with sink := .direction, desCh := 3 }, adc := { s.adc with busy := false, result := 10 }
        tasks := { s.tasks with t2 := ⟨true, false⟩ } })) = (3, 3, 10) ∧
    (fun t : State => (t.sc.curCh, t.adc.convCh, t.sc.settle)) (after .evTick { registered with
        cfg := { registered.cfg with muxSwitch := .early }, adc := { registered.adc with busy := false } }) = (3, 3, 3) := by
  decide

/-- V-E-3: one pending edge counts once. -/
theorem test_evEdge :
    (fun t : State => (t.cntCount, t.irq.edgePending))
      (after .evEdge (with_ fun s => { s with
        irq := { s.irq with edgePending := true }, cntCount := 3, tasks := { s.tasks with t3 := ⟨true, false⟩ } })) =
      (4, false) := by decide

/-- V-RST-1 and V-RST-2. -/
theorem test_csrRead : (after (.csrRead 0x00) State.reset).resp = 0x4100 ∧ (after (.csrRead 0x18) State.reset).resp = 0x0014 := by
  decide

/-! ## Steps of the block -/

/-- V-F-1: the word 0xA000. -/
theorem test_step_illegal_word :
    (fun t : State => (t.resp, csrRead t 0x20, csrRead t 0x22))
      (nextOf (step (State.reset.withFetchWord 16 0xA000))) = (0xFFFF, 0x0001, 0xA000) := by decide

/-- V-ADC-1: an internal operation on the port. -/
theorem test_step_internal_word :
    (fun t : State => (t.resp, t.adc, csrRead t 0x22)) (nextOf (step (State.reset.withFetchWord 16 0x2300))) =
      (0xFFFF, State.reset.adc, 0x2300) := by decide

/-- V-SC-4: the tick that finds a request pending is lost. -/
theorem test_timeStep_overrun :
    (fun s : State => (s.irq.tickPending, s.irq.tickOvr, s.time.tickCnt))
      (timeStep (with_ fun s => { s with
        time := { s.time with tickCnt := 999 }, irq := { s.irq with tickPending := true } })) = (true, true, 0) := by decide

/-- V-T-3: the window of 2250 ms ends in the time-base step that makes the elapsed time 2250 ms. -/
theorem test_timeStep_window :
    (timeStep { speedRunning with
      time := { speedRunning.time with timeMs := 2250, msPresc := 999 }
      tasks := { speedRunning.tasks with t1StartMs := 1 } }).tasks.t1 = ⟨true, true⟩ := by decide

/-- A frame of which symbol 41 is on the wire, one microsecond before its end. -/
def lastMicrosecond : State :=
  with_ fun s => { s with
    time := { s.time with timeUs := 51239 }, pins := { s.pins with dtr := false }
    emu := { s.emu with state := .sending, writing := true, bitIdx := 41, ind := true, frame := 1#42 <<< 41 } }

/-- V-EMU-9 and P4: the frame completes after 51 240 microseconds; EMU_STATUS 0x0A8D, RESP 0. -/
theorem test_timeStep_completion :
    (fun s : State => (csrRead s 0x18, s.resp)) (timeStep lastMicrosecond) = (0x0A8D, 0) := by decide

/-- V-E-2: a second fall of PULSE while one is pending sets `edge_ovr` (DIAG 0x0002). -/
theorem test_envStep_second_edge :
    csrRead (envStep (.pulse false) (with_ fun s => { s with irq := { s.irq with edgePending := true } })) 0x21 = 0x0002 := by
  decide

/-! ## Witnesses: concrete states and operands that meet the hypotheses of each statement -/

/-- The reset state with one move to come. -/
def withMove (m : Move) : State := with_ fun s => { s with agenda := [m] }

/-- The reset state with interrupts off and both requests pending. -/
def held : State := with_ fun s => { s with irq := { s.irq with ie := false, tickPending := true, edgePending := true } }

/-- The reset state in a given state of the reading sequencer and source of speed. -/
def wiAt (st : WiState) (src : SpeedSource) : State :=
  with_ fun s => { s with
    cfg := { s.cfg with speedSrc := src }, wi := { s.wi with init := true, cbValid := true, state := st } }

/-- The reset state in a given state of the emulator, with a given level of DTR. -/
def emuAt (st : EmuState) (dtr : Bool) : State :=
  with_ fun s => { s with emu := { s.emu with state := st }, pins := { s.pins with dtr := dtr } }

/-- The reset state after the reset conversion, with a given settle countdown and sink. -/
def readyAt (settle : Byte) (k : Sink) : State :=
  with_ fun s => { s with sc := { s.sc with settle := settle, sink := k }, adc := { s.adc with busy := false } }

theorem reset_invariant : Invariant State.reset where
  legal := by decide
  clocks := by decide
  noHandler := by decide
  settle := by decide
  conversion := by decide
  ring := by decide
  detector := by decide
  averager := by decide
  callback := by decide
  emulator := by decide

theorem witness_ResetMeetsInvariant : legalParams .vectorSet = true := by decide

theorem witness_FirstTickFindsResetConversionReady :
    legalParams .vectorSet = true ∧ 1000 ≤ Params.vectorSet.tickUs.toNat ∧ Params.vectorSet.adcConvUs.toNat ≤ 100 := by
  decide

/-- A refused configuration, and each of the five values at its boundary in a configuration that is not refused. -/
theorem witness_IllegalConfigurationIsRefused :
    step (with_ fun s => { s with cfg := { s.cfg with speedPeriodMs := 1999 } }) = .refused .illegalConfiguration ∧
    step (with_ fun s => { s with emu := { s.emu with bitIdx := 43 } }) = .fault .unreachableEncoding ∧
    step (with_ fun s => { s with ma := { s.ma with idx := 4 } }) = .fault .unreachableEncoding ∧
    step (with_ fun s => { s with time := { s.time with msPresc := 1000 } }) = .fault .unreachableEncoding ∧
    step (with_ fun s => { s with ma := { s.ma with buf := [0, 0, 0] } }) = .fault .unreachableEncoding ∧
    step (with_ fun s => { s with time := { s.time with tickCnt := 1000 } }) = .fault .unreachableEncoding ∧
    goesOn (step (with_ fun s => { s with
      emu := { s.emu with bitIdx := 42 }, ma := { s.ma with idx := 3 }
      time := { s.time with msPresc := 999, tickCnt := 999 } })) = true :=
  ⟨rfl, rfl, rfl, rfl, rfl, rfl, by decide⟩

theorem witness_StepKeepsInvariant : Invariant State.reset ∧ ∃ t, step State.reset = .next t := ⟨reset_invariant, _, rfl⟩

theorem witness_EveryStepFromInvariantContinues : Invariant State.reset := reset_invariant

/-- A step from a state in which every sticky bit is set. -/
theorem witness_NoStepClearsFaultsOrDiagnostics :
    ∃ s t : State, step s = .next t ∧ s.faults.fault ≠ 0 ∧ s.irq.tickOvr = true ∧ s.irq.edgeOvr = true :=
  ⟨with_ fun s => { s with faults := ⟨3, 0xA000⟩, irq := { s.irq with tickOvr := true, edgeOvr := true } }, _, rfl,
    by decide, rfl, rfl⟩

/-- An operation that changes `ie`, one that clears the tick request, the three that clear the edge request, and an
internal operation. -/
theorem witness_WhatNoOperationTouches :
    (∃ t, exec .sysSei held = .next t ∧ t.irq.ie ≠ held.irq.ie) ∧
    (∃ t, exec .evTick held = .next t ∧ t.irq.tickPending ≠ held.irq.tickPending) ∧
    (∃ t, exec .evEdge held = .next t ∧ t.irq.edgePending ≠ held.irq.edgePending) ∧
    (∃ t, exec (.taskStart 3) held = .next t ∧ t.irq.edgePending ≠ held.irq.edgePending) ∧
    (∃ s t : State, exec .wiService s = .next t ∧ t.irq.edgePending ≠ s.irq.edgePending) ∧
    (Instr.maClear ≠ .sysCli ∧ Instr.maClear ≠ .sysSei) ∧ Instr.isInternal .evTick = true :=
  ⟨⟨_, rfl, by decide⟩, ⟨_, rfl, by decide⟩, ⟨_, rfl, by decide⟩, ⟨_, rfl, by decide⟩,
    ⟨{ wiAt .newSample .edgeCounter with irq := held.irq }, _, rfl, by decide⟩, by decide, rfl⟩

/-- A step that changes the sink, one that changes the multiplexer's channel, and one that changes the time. -/
theorem witness_SampleClockAndTimeHaveOnlyTheirWriters :
    (∃ t, step (withMove (.command 0x100E)) = .next t ∧ t.sc.sink ≠ .none) ∧
    (∃ t, step { readyAt 0 .none with irq := { State.reset.irq with tickPending := true },
                                      sc := { State.reset.sc with desCh := 3 } } = .next t ∧ t.sc.curCh ≠ 0) ∧
    (∃ t, step State.reset = .next t ∧ t.time ≠ State.reset.time) :=
  ⟨⟨_, rfl, by decide⟩, ⟨_, rfl, by decide⟩, ⟨_, rfl, by decide⟩⟩

theorem witness_DecodeAndEncodeAgree : decode 0x100E = .ok (.scRegister 2 3) := by decide

theorem witness_DecoderFollowsTheOpcodeRows :
    ⟨0x1000, 0xFFE0⟩ ∈ opcodeRows ∧ (⟨0x1000, 0xFFE0⟩ : OpcodeRow).holds 0x100E = true := by decide

theorem witness_StepRunsTheDecodedCommand :
    PortReady (withMove (.command 0x8300)) ∧ decode 0x8300 = .ok .wiService ∧ Instr.isInternal .wiService = false := by
  decide

/-- One word for each case (a) to (e) of R86. -/
theorem witness_IllegalWordOnlyRecordsItsFault :
    PortReady (withMove (.command 0xA000)) ∧
    [0xA000, 0x3400, 0x1020, 0x1003, 0x9100].all illegalOnPort = true := by decide

theorem witness_LegalWordNeverRaisesIllegalCmd :
    PortReady (withMove (.command 0x5200)) ∧ illegalOnPort 0x5200 = false ∧ illegalOnPort 0x0000 = false ∧
    (∃ t, step (withMove (.command 0x5200)) = .next t ∧ t.faults ≠ State.reset.faults) ∧
    (∃ t, step (withMove (.command 0x0000)) = .next t ∧ t.faults = State.reset.faults) :=
  ⟨by decide, by decide, by decide, ⟨_, rfl, by decide⟩, ⟨_, rfl, rfl⟩⟩

/-- Only the tick pending, only an edge pending, both pending. -/
theorem witness_EligibleInterruptIsTakenFirst :
    [(true, false), (false, true), (true, true)].all (fun b =>
      let s := with_ fun s => { s with irq := { s.irq with tickPending := b.1, edgePending := b.2 } }
      legalParams s.cfg && encodingReachable s && interruptEligible s) = true := by decide

/-- A step that keeps both requests, one that clears the edge request, and one that ends the section. -/
theorem witness_CriticalSectionHoldsRequests :
    held.irq.ie = false ∧ held.irq.tickPending = true ∧ held.irq.edgePending = true ∧
    (∃ t, step { held with agenda := [.command 0x7003] } = .next t ∧ t.irq.edgePending = false) ∧
    (∃ t, step { held with agenda := [.command 0x0200] } = .next t ∧ t.irq.ie = true) :=
  ⟨rfl, rfl, rfl, ⟨_, rfl, rfl⟩, ⟨_, rfl, rfl⟩⟩

/-- The ends of the three ranges of reserved addresses. -/
theorem witness_SystemCommandsComplete :
    [0x15, 0x17, 0x23, 0x2F, 0x3D, 0xFF].all (fun a : Byte =>
      decide ((0x15 ≤ a.toNat ∧ a.toNat ≤ 0x17) ∨ (0x23 ≤ a.toNat ∧ a.toNat ≤ 0x2F) ∨ 0x3D ≤ a.toNat)) = true := by decide

theorem witness_SampleClockAndFilterCsrFields :
    (0x01 : Byte) ∈ [(0x01 : Byte), 0x02, 0x04, 0x05, 0x06, 0x07, 0x08, 0x09] := by decide

theorem witness_TaskAndInstrumentCsrFields :
    0x0A ≤ (0x0A : Byte).toNat ∧ (0x0A : Byte).toNat ≤ 0x14 ∧ 0x0A ≤ (0x14 : Byte).toNat ∧ (0x14 : Byte).toNat ≤ 0x14 := by
  decide

theorem witness_EmulatorTimeAndFaultCsrFields : (0x22 : Byte) ∈ [(0x19 : Byte), 0x1A, 0x1B, 0x20, 0x21, 0x22] := by decide

theorem witness_ParameterCsrFields : ∃ t, step State.reset = .next t := ⟨_, rfl⟩

theorem witness_ClocksCountMicroseconds :
    (with_ fun s => { s with time := { s.time with msPresc := 999 } }).time.msPresc.toNat < 1000 := by decide

theorem witness_TickTimerExpiresEveryPeriod :
    (with_ fun s => { s with time := { s.time with tickCnt := 999 } }).time.tickCnt.toNat < State.reset.cfg.tickUs.toNat := by
  decide

/-- During the conversion and at its end. -/
theorem witness_ConversionTakesItsTime :
    1 ≤ State.reset.cfg.adcConvUs.toNat ∧ 0 ≤ State.reset.cfg.adcConvUs.toNat ∧ 100 ≤ State.reset.cfg.adcConvUs.toNat := by
  decide

/-- Before the window can finish, and at its latest end. -/
theorem witness_SpeedWindowLastsItsPeriod :
    State.reset.time.msPresc.toNat < 1000 ∧ 1 ≤ State.reset.cfg.speedPeriodMs.toNat ∧
    2249000 ≤ 1000 * State.reset.cfg.speedPeriodMs.toNat ∧ 2250000 ≤ 1000 * State.reset.cfg.speedPeriodMs.toNat := by decide

theorem witness_TimeStepFrame : State.reset.emu.writing = false := rfl

/-- The same state with each kind of move first; a fall of PULSE with and without a pending edge. -/
theorem witness_TimeAndEnvironmentTakeTheirMoves :
    legalParams State.reset.cfg = true ∧ encodingReachable State.reset = true ∧ interruptEligible State.reset = false ∧
    State.reset.agenda = [] ∧ (withMove .time).agenda = .time :: [] ∧
    (withMove (.env (.dtr false))).agenda = .env (.dtr false) :: [] ∧
    (withMove (.env (.ain 7 9))).agenda = .env (.ain 7 9) :: [] ∧
    (withMove (.env (.pulse true))).agenda = .env (.pulse true) :: [] ∧
    (withMove (.env (.pulse false))).agenda = .env (.pulse false) :: [] ∧ State.reset.pins.pulse = true ∧
    State.reset.irq.edgePending = false ∧ interruptEligible held = false ∧ held.pins.pulse = true ∧
    held.irq.edgePending = true ∧ encodingReachable held = true := by decide

/-- A stale tick; a settling tick in both multiplexer modes; a delivering tick for each sink. -/
theorem witness_TickHandlerPaths :
    State.reset.adc.busy = true ∧ ((readyAt 4 .none).adc.busy = false ∧ (readyAt 4 .none).sc.settle ≠ 0) ∧
    (Params.vectorSet.muxSwitch = .literal ∧ ({ Params.vectorSet with muxSwitch := .early }).muxSwitch = .early) ∧
    [Sink.none, .speed, .direction].all (fun k =>
      !(readyAt 0 k).adc.busy && (readyAt 0 k).sc.settle == 0 && (readyAt 0 k).sc.sink == k) = true := by decide

/-- Four non-stale ticks among five count the settle countdown of 4 down to 0, for either sink. -/
theorem witness_SettleCountsNonStaleTicks :
    (([some 1, none, some 2, some 3, some 4] : List (Option Byte)).filter Option.isSome).length ≤
      (readyAt 4 .speed).sc.settle.toNat ∧
    [Sink.speed, .direction].all (fun k =>
      ([some 1, none, some 2, some 3, some 4].foldl (fun s e => tickAt e s) (readyAt 4 k)).sc.settle == 0) = true := by
  decide

/-- No tick, and all fourteen ticks of the default parameters. -/
theorem witness_DirectionTaskTakesSettlePlusSamples :
    legalParams State.reset.cfg = true ∧
    ([] : List Byte).length ≤ State.reset.cfg.settleK.toNat + State.reset.cfg.avgN.toNat ∧
    (List.replicate 14 (200 : Byte)).length = State.reset.cfg.settleK.toNat + State.reset.cfg.avgN.toNat := by decide

theorem witness_MovingAverageCommandsComplete :
    RingSound threeOnes.cfg threeOnes.ma ∧ threeOnes.ma.buf[threeOnes.ma.idx.toNat]? = some 0 := by decide

theorem witness_FullWindowSumsTheLastValues :
    RingSound threeOnes.cfg threeOnes.ma ∧ ([10, 20, 30, 40] : List Byte).length = threeOnes.cfg.maWidth.toNat := by decide

/-- A run of exactly W low samples, with D of the vector set and with D = 0. -/
theorem witness_LowRunFiresByDebounceSpacing :
    legalParams State.reset.cfg = true ∧ State.reset.cfg.pdThresh = State.reset.cfg.maWidth ∧
    (∀ v ∈ ([64, 0, 10, 64] : List Byte), v.toNat ≤ State.reset.cfg.pdLow.toNat) ∧
    State.reset.cfg.maWidth.toNat ≤ ([64, 0, 10, 64] : List Byte).length ∧
    legalParams { Params.vectorSet with pdDebounce := 0 } = true := by decide

theorem witness_AveragerCommandsComplete : nineSamples.avg.done = false ∧ tenSamples.avg.done = true := by decide

theorem witness_AveragerDoneAtTheNthSample :
    1 ≤ State.reset.cfg.avgN.toNat ∧ ([] : List Byte).length ≤ State.reset.cfg.avgN.toNat ∧
    (List.replicate 10 (255 : Byte)).length = State.reset.cfg.avgN.toNat := by decide

/-- Every task running, and every task stopped. -/
theorem witness_TaskServiceComplete :
    ∃ s : State, s.tasks.t1 = ⟨true, false⟩ ∧ s.tasks.t2 = ⟨true, false⟩ ∧ s.tasks.t3 = ⟨true, false⟩ ∧
      State.reset.tasks.t1 ≠ ⟨true, false⟩ ∧ State.reset.tasks.t2 ≠ ⟨true, false⟩ ∧ State.reset.tasks.t3 ≠ ⟨true, false⟩ :=
  ⟨with_ fun s => { s with tasks := { s.tasks with t1 := ⟨true, false⟩, t2 := ⟨true, false⟩, t3 := ⟨true, false⟩ } },
    by decide⟩

theorem witness_InstrumentControlCommandsComplete :
    (initialised.wi.init = true ∧ initialised.wi.state = .idle) ∧ State.reset.wi.init = false ∧
    (wiAt .sendFrame .pulseDetector).wi.state ≠ .idle := by decide

/-- Each state of the sequencer, with the speed task unfinished and finished, for both speed sources. -/
theorem witness_ServiceOpensAndClosesSpeedWindow :
    State.reset.wi.state = .idle ∧ (wiAt .newSample .pulseDetector).wi.state = .newSample ∧
    (wiAt .newSample .edgeCounter).cfg.speedSrc = .edgeCounter ∧
    (wiAt .samplingSpeed .pulseDetector).wi.state = .samplingSpeed ∧
    (wiAt .samplingSpeed .pulseDetector).tasks.t1.finished = false ∧
    (∃ s : State, s.wi.state = .samplingSpeed ∧ s.cfg.speedSrc = .pulseDetector ∧ s.tasks.t1.finished = true) ∧
    (∃ s : State, s.wi.state = .samplingSpeed ∧ s.cfg.speedSrc = .edgeCounter ∧ s.tasks.t3.finished = true) :=
  ⟨rfl, rfl, rfl, rfl, rfl,
    ⟨{ wiAt .samplingSpeed .pulseDetector with tasks := { State.reset.tasks with t1 := ⟨true, true⟩ } }, rfl, rfl, rfl⟩,
    ⟨{ wiAt .samplingSpeed .edgeCounter with tasks := { State.reset.tasks with t3 := ⟨true, true⟩ } }, rfl, rfl, rfl⟩⟩

/-- Unfinished; finished with ten samples; finished and then cleared by the host. -/
theorem witness_ServiceCapturesDirection :
    (wiAt .samplingDirection .pulseDetector).wi.state = .samplingDirection ∧
    (wiAt .samplingDirection .pulseDetector).tasks.t2.finished = false ∧
    (∃ s : State, s.wi.state = .samplingDirection ∧ s.tasks.t2.finished = true ∧ s.avg.count ≠ 0) ∧
    (∃ s : State, s.wi.state = .samplingDirection ∧ s.tasks.t2.finished = true ∧ s.avg.count = 0) :=
  ⟨rfl, rfl,
    ⟨{ wiAt .samplingDirection .pulseDetector with
        tasks := { State.reset.tasks with t2 := ⟨true, true⟩ }, avg := tenSamples.avg }, rfl, rfl, by decide⟩,
    ⟨{ wiAt .samplingDirection .pulseDetector with tasks := { State.reset.tasks with t2 := ⟨true, true⟩ } }, rfl, rfl, rfl⟩⟩

theorem witness_ServiceCommitsTheReading :
    (wiAt .sendFrame .pulseDetector).wi.state = .sendFrame ∧ (wiAt .sendFrame .pulseDetector).wi.cbTarget = .emulator ∧
    ∃ s : State, s.wi.state = .sendFrame ∧ s.wi.cbTarget = .host :=
  ⟨rfl, rfl, { wiAt .sendFrame .pulseDetector with
      wi := { (wiAt .sendFrame .pulseDetector).wi with cbTarget := .host } }, rfl, rfl⟩

/-- A transition by WI.START_SAMPLE, by WI.SERVICE and by WI.ABORT. -/
theorem witness_SequencerTransitions :
    (∃ t, exec (.wiStartSample true) initialised = .next t ∧ t.wi.state ≠ initialised.wi.state) ∧
    (∃ t, exec .wiService (wiAt .newSample .edgeCounter) = .next t ∧ t.wi.state ≠ .newSample) ∧
    (∃ t, exec .wiAbort (wiAt .samplingSpeed .pulseDetector) = .next t ∧ t.wi.state ≠ .samplingSpeed) :=
  ⟨⟨_, rfl, by decide⟩, ⟨_, rfl, by decide⟩, ⟨_, rfl, by decide⟩⟩

theorem witness_GettersAnswerTheLastReading :
    2000 ≤ (with_ fun s => { s with cfg := { s.cfg with speedPeriodMs := 2000 } }).cfg.speedPeriodMs.toNat := by decide

/-- Both ends of the range of direction 1 and of direction 15, and both ranges of direction 0. -/
theorem witness_DirectionOfAveragedSample :
    (with_ fun s => { s with wi := { s.wi with lastDirRaw := 996 } }).wi.lastDirRaw =
      BitVec.ofNat 16 (4 * (249 : Byte).toNat) ∧
    [(9, 1), (24, 1), (233, 15), (248, 15), (0, 0), (8, 0), (249, 0), (255, 0)].all (fun x : Byte × Nat =>
      decide ((1 ≤ x.2 ∧ x.2 ≤ 15 ∧ 16 * x.2 ≤ x.1.toNat + 7 ∧ x.1.toNat ≤ 16 * x.2 + 8) ∨
        (x.2 = 0 ∧ (x.1.toNat ≤ 8 ∨ 249 ≤ x.1.toNat)))) = true := by decide

theorem witness_SpeedUnitsRoundTheExactRational : 2000 ≤ (2000 : Word).toNat ∧ 2000 ≤ (65535 : Word).toNat := by decide

/-- Every state of the emulator, with both levels of DTR, and SENDING with and without a frame on the wire. -/
theorem witness_EmulatorServiceComplete :
    (emuAt .disabled true).emu.state = .disabled ∧ (emuAt .disabled true).pins.dtr = true ∧
    (emuAt .disabled false).pins.dtr = false ∧ (emuAt .startSample true).emu.state = .startSample ∧
    ((emuAt .sampling false).emu.state = .sampling ∧ (emuAt .sampling false).pins.dtr = false) ∧
    ((emuAt .sampling true).emu.state = .sampling ∧ (emuAt .sampling true).pins.dtr = true) ∧
    ((emuAt .sending true).emu.state = .sending ∧ (emuAt .sending true).emu.writing = false) ∧
    (lastMicrosecond.emu.state = .sending ∧ lastMicrosecond.emu.writing = true) := by decide

theorem witness_ReceiverRecoversTheReading : 2000 ≤ State.reset.cfg.speedPeriodMs.toNat := by decide

/-- The first microsecond of a frame, and its completion with DTR at either level. -/
theorem witness_FrameSymbolsHoldTheirSlots :
    1 ≤ State.reset.cfg.bitUs.toNat ∧ (emuAt .sending false).emu.state = .sending ∧
    (∃ t, exec .emuService (emuAt .sending false) = .next t) ∧ (∃ t, exec .emuService (emuAt .sending true) = .next t) ∧
    0 < 42 * State.reset.cfg.bitUs.toNat ∧ 51240 = 42 * State.reset.cfg.bitUs.toNat :=
  ⟨by decide, rfl, ⟨_, rfl⟩, ⟨_, rfl⟩, by decide, by decide⟩

/-- A busy port without and with an eligible interrupt. -/
theorem witness_BusyPortHoldsCommands :
    legalParams lastMicrosecond.cfg = true ∧ encodingReachable lastMicrosecond = true ∧
    lastMicrosecond.emu.writing = true ∧ interruptEligible lastMicrosecond = false ∧
    ({ lastMicrosecond with agenda := [.command 0] }).agenda = .command 0 :: [] ∧
    interruptEligible { lastMicrosecond with irq := { lastMicrosecond.irq with tickPending := true } } = true := by decide

/-- `lastMicrosecond` is a state of the block. -/
theorem lastMicrosecond_invariant : Invariant lastMicrosecond where
  legal := by decide
  clocks := by decide
  noHandler := by decide
  settle := by decide
  conversion := by decide
  ring := by decide
  detector := by decide
  averager := by decide
  callback := by decide
  emulator := by decide

/-- A transition by EMU.SERVICE, by a completed reading and, in a state that meets the invariant, by a completed frame. -/
theorem witness_EmulatorTransitions :
    (∃ t, exec .emuService (emuAt .disabled false) = .next t ∧ t.emu.state ≠ .disabled) ∧
    (∃ t, exec .wiService (wiAt .sendFrame .pulseDetector) = .next t ∧ t.emu.state ≠ .disabled) ∧
    Invariant lastMicrosecond ∧ (timeStep lastMicrosecond).emu.state ≠ lastMicrosecond.emu.state :=
  ⟨⟨_, rfl, by decide⟩, ⟨_, rfl, by decide⟩, lastMicrosecond_invariant, by decide⟩

end Sys2Proof.Tests
end

section
/-!
When a step of the block stops: exactly at its two checks (00_scope.md R9, 93_implementation_defined.md I9).
-/

namespace Sys2Proof.Machine

/-! ## The two checks -/

/-- 00_scope.md R9 and 70_reset_and_hazards.md R307 as one proposition, in the order of the statement. -/
theorem legalParams_iff (p : Params) :
    legalParams p = true ↔
      p.adcConvUs.toNat < p.tickUs.toNat ∧ 1 ≤ p.adcConvUs.toNat ∧ 1 ≤ p.pdThresh.toNat ∧
      p.pdThresh.toNat ≤ p.maWidth.toNat ∧ p.maWidth.toNat ≤ p.maWmax.toNat ∧
      4 ≤ p.settleK.toNat ∧ 1 ≤ p.avgN.toNat ∧ 2000 ≤ p.speedPeriodMs.toNat ∧
      1 ≤ p.bitUs.toNat ∧ p.dirShift.toNat ≤ 6 := by
  simp only [legalParams, Bool.and_eq_true, decide_eq_true_eq]
  tauto

/-- The values that no rule writes: those of 93_implementation_defined.md I9, of 20_memory.md R75 and of
10_state.md R25. -/
theorem not_encodingReachable_iff (s : State) :
    ¬ encodingReachable s = true ↔
      42 < s.emu.bitIdx.toNat ∨ s.cfg.maWidth.toNat ≤ s.ma.idx.toNat ∨ 1000 ≤ s.time.msPresc.toNat ∨
      s.ma.buf.length ≠ s.cfg.maWidth.toNat ∨ s.cfg.tickUs.toNat ≤ s.time.tickCnt.toNat := by
  simp only [encodingReachable, Bool.and_eq_true, decide_eq_true_eq]
  omega

/-! ## Past the checks no step stops -/

/-- The interrupt agent answers a next state, whichever handler runs. -/
theorem takeInterrupt_next (s : State) : ∃ t, takeInterrupt s = .next t := by
  unfold takeInterrupt
  split
  · dsimp only
    split
    · exact ⟨_, runHandler_edge _⟩
    · exact ⟨_, runHandler_tick _⟩
  · split
    · exact ⟨_, runHandler_tick _⟩
    · exact ⟨_, runHandler_edge _⟩

/-- A word issued at a free port answers a next state, legal or not. -/
theorem issueCommand_next (w : Word) (s : State) (hfree : s.emu.writing = false) :
    ∃ t, issueCommand w s = .next t := by
  unfold issueCommand
  split
  · exact ⟨_, rfl⟩
  · next i _ =>
    split
    · exact ⟨_, rfl⟩
    · exact exec_next i s hfree

/-- The next move of the agenda answers a next state: a command is issued at a free port only. -/
theorem nextMove_next (s : State) : ∃ t, nextMove s = .next t := by
  unfold nextMove
  split
  case h_4 w rest _ =>
    split
    · exact ⟨_, rfl⟩
    · next hbusy => exact issueCommand_next w { s with agenda := rest } (Bool.eq_false_iff.mpr hbusy)
  all_goals exact ⟨_, rfl⟩

/-- A step that passes the two checks answers a next state. -/
theorem step_next_of_checks (s : State) (hl : legalParams s.cfg = true) (he : encodingReachable s = true) :
    ∃ t, step s = .next t := by
  rw [step_eq s hl he]
  split
  · exact takeInterrupt_next s
  · exact nextMove_next s

/-! ## The outcome of a step by the checks -/

/-- A failed first check, and nothing before it. -/
theorem step_eq_refused (s : State) (hl : ¬ legalParams s.cfg = true) :
    step s = .refused .illegalConfiguration := by
  simp [step, blockStep, hl]

/-- A failed second check, when the first one passed. -/
theorem step_eq_fault (s : State) (hl : legalParams s.cfg = true) (he : ¬ encodingReachable s = true) :
    step s = .fault .unreachableEncoding := by
  simp [step, blockStep, hl, he]

theorem step_refused_iff (s : State) :
    step s = .refused .illegalConfiguration ↔ ¬ legalParams s.cfg = true := by
  refine ⟨fun h hl => ?_, step_eq_refused s⟩
  by_cases he : encodingReachable s = true
  · obtain ⟨t, ht⟩ := step_next_of_checks s hl he
    simp [ht] at h
  · simp [step_eq_fault s hl he] at h

theorem step_fault_iff (s : State) :
    step s = .fault .unreachableEncoding ↔
      step s ≠ .refused .illegalConfiguration ∧ ¬ encodingReachable s = true := by
  constructor
  · intro h
    refine ⟨by simp [h], fun he => ?_⟩
    by_cases hl : legalParams s.cfg = true
    · obtain ⟨t, ht⟩ := step_next_of_checks s hl he
      simp [ht] at h
    · simp [step_eq_refused s hl] at h
  · rintro ⟨hnr, he⟩
    have hl : legalParams s.cfg = true := by
      by_contra hl
      exact hnr (step_eq_refused s hl)
    exact step_eq_fault s hl he

/-- Settles O4: the step's two checks, each written out, are the only places where a step can stop. -/
theorem illegalConfigurationIsRefused : Obligations.IllegalConfigurationIsRefused := by
  intro s
  rw [← legalParams_iff, ← not_encodingReachable_iff]
  exact ⟨step_refused_iff s, step_fault_iff s⟩

end Sys2Proof.Machine
end

section
/-!
The word behind a decoded operation (30_encoding.md R81, R82, R87): decoding has the encoder as its inverse.
-/

namespace Sys2Proof

/-- A word is its two fields (30_encoding.md R81). -/
theorem commandWord_fields (w : Word) : commandWord (unitOpField w) (immField w) = w :=
  BitVec.extractLsb'_append_extractLsb'

/-- A word whose UNIT and OP fields read `n` and whose IMM field reads `imm`. -/
theorem commandWord_of_fields {w : Word} {n : Nat} {imm : Byte} (hn : (unitOpField w).toNat = n)
    (hi : immField w = imm) : commandWord (BitVec.ofNat 8 n) imm = w := by
  rw [← hn, ← hi, BitVec.ofNat_toNat, BitVec.setWidth_eq, commandWord_fields]

/-- The reserved bits and the operands of format S make up IMM, and so for the formats below (R82). -/
theorem immS_of_reserved_zero : ∀ imm : Byte, imm.extractLsb' 5 3 = 0 →
    immS (imm.extractLsb' 0 2) (imm.extractLsb' 2 3) = imm := by decide

theorem immU_of_reserved_zero : ∀ imm : Byte, imm.extractLsb' 2 6 = 0 → immU (imm.extractLsb' 0 2) = imm := by decide

theorem immC_of_reserved_zero : ∀ imm : Byte, imm.extractLsb' 3 5 = 0 → immC (imm.extractLsb' 0 3) = imm := by decide

theorem immB_of_reserved_zero : ∀ imm : Byte, imm.extractLsb' 1 7 = 0 → immB (imm.getLsbD 0) = imm := by decide

section
variable {w : Word} {n : Nat} {i j : Instr} (hn : (unitOpField w).toNat = n)
include hn

theorem encode_of_formatN (he : encode i = commandWord (BitVec.ofNat 8 n) 0)
    (h : formatN (immField w) i = .ok j) : encode j = w := by
  unfold formatN at h
  split at h
  · next hi => cases h; rw [he, commandWord_of_fields hn hi]
  · cases h

theorem encode_of_formatV {f : Byte → Instr} (he : ∀ v, encode (f v) = commandWord (BitVec.ofNat 8 n) v)
    (h : formatV (immField w) f = .ok j) : encode j = w := by
  cases h
  rw [he, commandWord_of_fields hn rfl]

theorem encode_of_formatS {f : BitVec 2 → Channel → Instr}
    (he : ∀ x c, encode (f x c) = commandWord (BitVec.ofNat 8 n) (immS x c))
    (h : formatS (immField w) f = .ok j) : encode j = w := by
  unfold formatS at h
  split at h
  · next hi => cases h; rw [he, immS_of_reserved_zero _ hi, commandWord_of_fields hn rfl]
  · cases h

theorem encode_of_formatU {f : BitVec 2 → Instr} (he : ∀ x, encode (f x) = commandWord (BitVec.ofNat 8 n) (immU x))
    (h : formatU (immField w) f = .ok j) : encode j = w := by
  unfold formatU at h
  split at h
  · next hi => cases h; rw [he, immU_of_reserved_zero _ hi, commandWord_of_fields hn rfl]
  · cases h

theorem encode_of_formatC {f : Channel → Instr} (he : ∀ c, encode (f c) = commandWord (BitVec.ofNat 8 n) (immC c))
    (h : formatC (immField w) f = .ok j) : encode j = w := by
  unfold formatC at h
  split at h
  · next hi => cases h; rw [he, immC_of_reserved_zero _ hi, commandWord_of_fields hn rfl]
  · cases h

theorem encode_of_formatB {f : Bool → Instr} (he : ∀ b, encode (f b) = commandWord (BitVec.ofNat 8 n) (immB b))
    (h : formatB (immField w) f = .ok j) : encode j = w := by
  unfold formatB at h
  split at h
  · next hi => cases h; rw [he, immB_of_reserved_zero _ hi, commandWord_of_fields hn rfl]
  · cases h

end

/-- A word that decodes is the encoding of what it decodes to (30_encoding.md R87); the arms of `decode`, grouped by
their format. -/
theorem encode_of_decode {w : Word} {i : Instr} (h : decode w = .ok i) : encode i = w := by
  unfold decode at h
  dsimp only at h
  split at h
  case h_4 hn => exact encode_of_formatS hn (fun _ _ => rfl) h
  case h_5 hn | h_23 hn | h_24 hn | h_25 hn => exact encode_of_formatU hn (fun _ => rfl) h
  case h_6 hn => exact encode_of_formatC hn (fun _ => rfl) h
  case h_30 hn | h_39 hn => exact encode_of_formatB hn (fun _ => rfl) h
  case h_11 hn | h_15 hn | h_17 hn | h_21 hn | h_26 hn | h_27 hn | h_28 hn | h_42 hn =>
    exact encode_of_formatV hn (fun _ => rfl) h
  case h_43 => cases h
  all_goals next hn => exact encode_of_formatN hn rfl h

end Sys2Proof
end

section
/-!
What a time-base step leaves alone, and how the agenda's moves are taken (20_memory.md R70, R71).
-/

namespace Sys2Proof.Machine

/-! ## A time-base step (20_memory.md R70) -/

/-- The four parts before the bit writer, with `u` the state they reach: none of them writes the emulator or RESP. -/
theorem advanceTick_tasks_adc_clocks_changes_only (s u : State)
    (h : u = advanceTick (advanceTasks (advanceAdc (advanceClocks s)))) :
    u = { s with
      time := u.time, adc := u.adc, tasks := u.tasks
      irq := { s.irq with tickPending := u.irq.tickPending, tickOvr := u.irq.tickOvr } } := by
  rw [advanceTick_changes_only, advanceTasks_changes_only, advanceAdc_changes_only,
    advanceClocks_changes_only] at h
  rw [h]

/-- What a time-base step can write. -/
theorem timeStep_changes_only (s : State) :
    timeStep s =
      { s with
        time := (timeStep s).time, adc := (timeStep s).adc, tasks := (timeStep s).tasks
        irq := { s.irq with tickPending := (timeStep s).irq.tickPending, tickOvr := (timeStep s).irq.tickOvr }
        emu := { s.emu with
          state := (timeStep s).emu.state, writing := (timeStep s).emu.writing, bitIdx := (timeStep s).emu.bitIdx
          txd := (timeStep s).emu.txd, ind := (timeStep s).emu.ind }
        resp := (timeStep s).resp } := by
  unfold timeStep
  rw [advanceBitWriter_changes_only, advanceTick_tasks_adc_clocks_changes_only s _ rfl]

/-- With no frame on the wire a time-base step ends before the bit writer. -/
theorem timeStep_of_not_writing (s : State) (h : s.emu.writing = false) :
    timeStep s = advanceTick (advanceTasks (advanceAdc (advanceClocks s))) := by
  refine advanceBitWriter_idle _ ?_
  rw [advanceTick_tasks_adc_clocks_changes_only s _ rfl]
  exact h

/-- Settles O29: from all that a time-base step can write, and the bit writer's rest. -/
theorem timeStepFrame : Obligations.TimeStepFrame := by
  rintro s _ rfl
  have hidle (h : s.emu.writing = false) : (timeStep s).emu = s.emu ∧ (timeStep s).resp = s.resp := by
    rw [timeStep_of_not_writing s h, advanceTick_tasks_adc_clocks_changes_only s _ rfl]
    exact ⟨rfl, rfl⟩
  refine ⟨?_, ?_, ?_, ?_, ?_, ?_, ?_, ?_, ?_, ?_, ?_, ?_, ?_, ?_, ?_, ?_, ?_, hidle⟩
  all_goals rw [timeStep_changes_only s]

/-! ## The moves of the agenda (20_memory.md R70, R71) -/

/-- With the two checks passed and no interrupt eligible, the step is the next move. -/
theorem step_eq_nextMove (s : State) (hl : legalParams s.cfg = true) (he : encodingReachable s = true)
    (hi : interruptEligible s = false) : step s = nextMove s := by
  simp [step_eq s hl he, hi]

theorem nextMove_nil (s : State) (h : s.agenda = []) : nextMove s = .next (timeStep s) := by
  simp [nextMove, h]

theorem nextMove_time (s : State) (rest : List Move) (h : s.agenda = .time :: rest) :
    nextMove s = .next (timeStep { s with agenda := rest }) := by
  simp [nextMove, h]

theorem nextMove_env (s : State) (e : EnvStep) (rest : List Move) (h : s.agenda = .env e :: rest) :
    nextMove s = .next (envStep e { s with agenda := rest }) := by
  simp [nextMove, h]

/-- Only a change of PULSE from high to low is a fall (10_state.md R26). -/
theorem fallingEdge_iff (before after : Bool) :
    fallingEdge before after = true ↔ before = true ∧ after = false := by
  simp [fallingEdge]

/-- A PULSE level that is no fall requests nothing. -/
theorem envStep_pulse_of_not_fall (s : State) (level : Bool) (h : ¬ (s.pins.pulse = true ∧ level = false)) :
    envStep (.pulse level) s = { s with pins := { s.pins with pulse := level } } := by
  rw [← fallingEdge_iff] at h
  simp [envStep, h]

/-- A fall of PULSE requests the edge interrupt. -/
theorem envStep_pulse_of_fall (s : State) (h : s.pins.pulse = true) :
    envStep (.pulse false) s =
      { s with pins := { s.pins with pulse := false }, irq := requestEdge s.irq } := by
  simp [envStep, fallingEdge, h]

theorem requestEdge_of_not_pending (i : Interrupts) (h : i.edgePending = false) :
    requestEdge i = { i with edgePending := true } := by
  simp [requestEdge, h]

theorem requestEdge_of_pending (i : Interrupts) (h : i.edgePending = true) :
    requestEdge i = { i with edgeOvr := true } := by
  simp [requestEdge, h]

/-- Settles O30: the step is the agenda's next move, one rule per kind of move. -/
theorem timeAndEnvironmentTakeTheirMoves : Obligations.TimeAndEnvironmentTakeTheirMoves := by
  intro s rest hl he hi
  rw [step_eq_nextMove s hl he hi]
  refine ⟨nextMove_nil s, nextMove_time s rest, fun level h => ?dtr, fun ch v h => ?ain,
    fun level h hno => ?noFall, fun h hp hedge => ?fall, fun h hp hedge => ?lostFall⟩
  case dtr => exact nextMove_env s _ rest h
  case ain => exact nextMove_env s _ rest h
  case noFall => rw [nextMove_env s _ rest h, envStep_pulse_of_not_fall { s with agenda := rest } level hno]
  case fall =>
    rw [nextMove_env s _ rest h, envStep_pulse_of_fall { s with agenda := rest } hp,
      requestEdge_of_not_pending s.irq hedge]
  case lostFall =>
    rw [nextMove_env s _ rest h, envStep_pulse_of_fall { s with agenda := rest } hp,
      requestEdge_of_pending s.irq hedge]

end Sys2Proof.Machine
end

section
/-!
The critical section (20_memory.md R69): what an operation and a move of the agenda do to the interrupt requests.
-/

namespace Sys2Proof.Machine

/-! ## What an operation does to the interrupt requests and to `ie` -/

@[simp] theorem taskService1_irq (v : Byte) (s : State) : (taskService1 v s).irq = s.irq := by
  rw [taskService1_changes_only]

@[simp] theorem taskService2_irq (v : Byte) (s : State) : (taskService2 v s).irq = s.irq := by
  rw [taskService2_changes_only]

@[simp] theorem taskService3_irq (v : Byte) (s : State) : (taskService3 v s).irq = s.irq := by
  rw [taskService3_changes_only]

@[simp] theorem avgProcess_irq (v : Byte) (s : State) : (avgProcess v s).irq = s.irq := by
  rw [avgProcess_changes_only]

@[simp] theorem scUnregister_irq (k : Sink) (s : State) : (scUnregister k s).irq = s.irq := by
  rw [scUnregister_changes_only]

@[simp] theorem taskStop_irq (k : TaskId) (s : State) : (taskStop k s).irq = s.irq := by
  rw [taskStop_changes_only]

@[simp] theorem wiStartSample_irq (target : CallbackTarget) (s : State) : (wiStartSample target s).irq = s.irq := by
  rw [wiStartSample_changes_only]

@[simp] theorem wiAbort_irq (s : State) : (wiAbort s).irq = s.irq := by
  rw [wiAbort_changes_only]

@[simp] theorem emuEnter_irq (e : EmuState) (s : State) : (emuEnter e s).irq = s.irq := by
  rw [emuEnter_changes_only]

/-- Of the task starts only that of task 3 touches a request (42_tasks.md R170). -/
theorem taskStart_irq_of_ne_edge (k : TaskId) (s : State) (h : k ≠ .edge) : (taskStart k s).irq = s.irq := by
  cases k with
  | edge => exact absurd rfl h
  | speed => rfl
  | direction => rfl

/-- EMU.SERVICE touches no request, in any state of the emulator. -/
theorem execEmuService_irq {s t : State} (h : execEmuService s = .next t) : t.irq = s.irq := by
  unfold execEmuService at h
  split at h
  · cases h
    unfold emuServiceDisabled
    split <;> simp
  · cases h
    simp [emuServiceStartSample]
  · cases h
    unfold emuServiceSampling
    split <;> simp
  · split at h
    · cases h
    · cases h
      rfl

/-- All that an operation can do to the interrupt state (10_state.md R23, R24). -/
inductive IrqEffect (s t : State) : Instr → Prop
  | kept {i : Instr} (hirq : t.irq = s.irq) : IrqEffect s t i
  | cli (hirq : t.irq = { s.irq with ie := false }) : IrqEffect s t .sysCli
  | sei (hirq : t.irq = { s.irq with ie := true }) : IrqEffect s t .sysSei
  | tick (hirq : t.irq = { s.irq with tickPending := false }) : IrqEffect s t .evTick
  | edge (hirq : t.irq = { s.irq with edgePending := false }) : IrqEffect s t .evEdge
  /-- TASK.START 3 -/
  | start (hirq : t.irq = { s.irq with edgePending := false }) (ht3 : t.tasks.t3 = ⟨true, false⟩) :
      IrqEffect s t (.taskStart 3)
  /-- WI.SERVICE that starts task 3 -/
  | service (hstate : s.wi.state = .newSample) (hsrc : s.cfg.speedSrc = .edgeCounter)
      (hirq : t.irq = { s.irq with edgePending := false }) (ht3 : t.tasks.t3 = ⟨true, false⟩) : IrqEffect s t .wiService

/-- TASK.START, by the task its operand names. -/
theorem execTaskStart_irqEffect {task : BitVec 2} {s t : State} (h : execTaskStart task s = .next t) :
    IrqEffect s t (.taskStart task) := by
  have hcases : ∀ x : BitVec 2, x = 0 ∨ x = 1 ∨ x = 2 ∨ x = 3 := by decide
  obtain rfl | rfl | rfl | rfl := hcases task
  case inr.inr.inr => cases h; exact .start rfl rfl
  all_goals cases h; exact .kept rfl

/-- WI.SERVICE in NEW_SAMPLE starts the speed task, which is task 3 only with the edge counter. -/
theorem wiServiceNewSample_irqEffect (s : State) (hstate : s.wi.state = .newSample) :
    IrqEffect s (respond 0 (wiServiceNewSample s)) .wiService := by
  unfold wiServiceNewSample
  cases hsrc : s.cfg.speedSrc with
  | edgeCounter =>
    have hspeed : speedTask s.cfg = .edge := by simp [speedTask, hsrc]
    rw [hspeed]
    exact .service hstate hsrc rfl rfl
  | pulseDetector =>
    have hspeed : speedTask s.cfg = .speed := by simp [speedTask, hsrc]
    rw [hspeed]
    exact .kept rfl

/-- WI.SERVICE, by the state of the sequencer. -/
theorem wiService_irqEffect (s : State) : IrqEffect s (respond 0 (wiService s)) .wiService := by
  unfold wiService
  split
  case h_1 => exact .kept rfl
  case h_2 hstate => exact wiServiceNewSample_irqEffect s hstate
  case h_3 =>
    unfold wiServiceSamplingSpeed
    split
    · exact .kept (by simp [taskStart_irq_of_ne_edge])
    · exact .kept rfl
  case h_4 =>
    unfold wiServiceSamplingDirection
    split
    · dsimp only
      split <;> exact .kept (by simp)
    · exact .kept rfl
  case h_5 =>
    unfold wiServiceSendFrame
    split
    · exact .kept (by simp [emuOnComplete])
    · exact .kept rfl

/-- What each operation does to the interrupt state. -/
theorem exec_irqEffect {i : Instr} {s t : State} (h : exec i s = .next t) : IrqEffect s t i := by
  cases i
  case sysCli => cases h; exact .cli rfl
  case sysSei => cases h; exact .sei rfl
  case evTick => cases h; exact .tick (by rw [tickHandler_changes_only])
  case evEdge => cases h; exact .edge (by rw [edgeHandler_changes_only])
  case taskStart => exact execTaskStart_irqEffect h
  case wiService => cases h; exact wiService_irqEffect s
  case emuService => exact .kept (execEmuService_irq h)
  case scRegister => simp only [exec, execScRegister] at h; split at h <;> cases h <;> exact .kept rfl
  case scUnregister => simp only [exec, execScUnregister] at h; split at h <;> cases h <;> exact .kept (by simp)
  case taskStop => simp only [exec, execTaskStop] at h; split at h <;> cases h <;> exact .kept (by simp)
  case taskFinished => simp only [exec, execTaskFinished] at h; split at h <;> cases h <;> exact .kept rfl
  case avgValue => simp only [exec, execAvgValue] at h; split at h <;> cases h <;> exact .kept rfl
  case avgProcess => cases h; exact .kept (by simp)
  case taskService1 => cases h; exact .kept (by simp)
  case taskService2 => cases h; exact .kept (by simp)
  case taskService3 => cases h; exact .kept (by simp)
  case wiStartSample => cases h; exact .kept (by simp)
  case wiAbort => cases h; exact .kept (by simp)
  all_goals cases h; exact .kept rfl

/-! ## What a move does to the requests and to `ie` -/

/-- A pending request still pends, and `ie` is as before. -/
structure RequestsHeld (i j : Interrupts) : Prop where
  tick : i.tickPending = true → j.tickPending = true
  edge : i.edgePending = true → j.edgePending = true
  ie : j.ie = i.ie

theorem RequestsHeld.of_eq {i j : Interrupts} (h : j = i) : RequestsHeld i j := by
  subst h
  exact ⟨id, id, rfl⟩

/-- A request of the tick timer takes none back (10_state.md R25). -/
theorem requestTick_requestsHeld (i : Interrupts) : RequestsHeld i (requestTick i) := by
  unfold requestTick
  split
  · exact ⟨id, id, rfl⟩
  · exact ⟨fun _ => rfl, id, rfl⟩

/-- A request of the edge source takes none back (10_state.md R26). -/
theorem requestEdge_requestsHeld (i : Interrupts) : RequestsHeld i (requestEdge i) := by
  unfold requestEdge
  split
  · exact ⟨id, id, rfl⟩
  · exact ⟨id, fun _ => rfl, rfl⟩

/-- Part 4 of a time-base step either leaves the interrupt state or requests a tick. -/
theorem advanceTick_requestsHeld (s : State) : RequestsHeld s.irq (advanceTick s).irq := by
  unfold advanceTick
  dsimp only
  split
  · exact requestTick_requestsHeld s.irq
  · exact .of_eq rfl

/-- Time passing takes no request back: of the parts of a time-base step only part 4 writes the interrupt state. -/
theorem timeStep_requestsHeld (s : State) : RequestsHeld s.irq (timeStep s).irq := by
  have htick := advanceTick_requestsHeld (advanceTasks (advanceAdc (advanceClocks s)))
  have hbefore : (advanceTasks (advanceAdc (advanceClocks s))).irq = s.irq := by
    rw [advanceTasks_changes_only, advanceAdc_changes_only, advanceClocks_changes_only]
  have hafter : (timeStep s).irq = (advanceTick (advanceTasks (advanceAdc (advanceClocks s)))).irq := by
    unfold timeStep
    rw [advanceBitWriter_changes_only]
  rwa [hbefore, ← hafter] at htick

/-- A move of the environment takes no request back; only a fall of PULSE writes the interrupt state. -/
theorem envStep_requestsHeld (e : EnvStep) (s : State) : RequestsHeld s.irq (envStep e s).irq := by
  cases e with
  | dtr level => exact .of_eq rfl
  | ain ch v => exact .of_eq rfl
  | pulse level =>
    unfold envStep
    dsimp only
    split
    · exact requestEdge_requestsHeld s.irq
    · exact .of_eq rfl

/-- What the port can make of a word: a fault with no other effect, or the operation the word encodes. -/
theorem issueCommand_cases {w : Word} {s t : State} (h : issueCommand w s = .next t) :
    t = raiseFault .illegalCmd w s ∨ ∃ i, decode w = .ok i ∧ i.isInternal = false ∧ exec i s = .next t := by
  unfold issueCommand at h
  split at h
  · cases h
    exact .inl rfl
  · next i hd =>
    split at h
    · cases h
      exact .inl rfl
    · next hi => exact .inr ⟨i, hd, Bool.eq_false_iff.mpr hi, h⟩

/-- The three kinds of move: time passes, the environment moves a pin, or the port takes a word. -/
theorem nextMove_cases {s t : State} (h : nextMove s = .next t) :
    (∃ rest, t = timeStep { s with agenda := rest }) ∨
    (∃ e rest, s.agenda = .env e :: rest ∧ t = envStep e { s with agenda := rest }) ∨
    (∃ w rest, s.agenda = .command w :: rest ∧ issueCommand w { s with agenda := rest } = .next t) := by
  unfold nextMove at h
  split at h
  case h_1 => cases h; exact .inl ⟨s.agenda, rfl⟩
  case h_2 rest _ => cases h; exact .inl ⟨rest, rfl⟩
  case h_3 e rest ha => cases h; exact .inr (.inl ⟨e, rest, ha, rfl⟩)
  case h_4 w rest ha =>
    split at h
    · cases h; exact .inl ⟨s.agenda, rfl⟩
    · exact .inr (.inr ⟨w, rest, ha, h⟩)

/-- While `ie = 0` the step is a move of another agent than the interrupt agent. -/
theorem nextMove_of_ie_false {s t : State} (hie : s.irq.ie = false) (h : step s = .next t) : nextMove s = .next t := by
  obtain ⟨-, -, hmove⟩ := step_next s t h
  simpa [interruptEligible, hie] using hmove

/-- The commands that do more to the interrupt state, while `ie = 0`, than hold the requests: SYS.SEI, and the two that
start task 3 (42_tasks.md R170, 45_system.md R252). -/
theorem issueCommand_of_ie_false {w : Word} {s t : State} (hie : s.irq.ie = false) (h : issueCommand w s = .next t) :
    RequestsHeld s.irq t.irq ∨ (w = 0x0200 ∧ t.irq = { s.irq with ie := true }) ∨
    ((w = 0x7003 ∨ w = 0x8300) ∧ t.irq = { s.irq with edgePending := false } ∧ t.tasks.t3 = ⟨true, false⟩) := by
  obtain rfl | ⟨i, hdecode, hport, hexec⟩ := issueCommand_cases h
  · exact .inl (.of_eq rfl)
  · have hw : encode i = w := encode_of_decode hdecode
    cases exec_irqEffect hexec with
    | kept hirq => exact .inl (.of_eq hirq)
    | cli hirq => exact .inl (.of_eq (by rw [hirq, ← hie]))
    | sei hirq => exact .inr (.inl ⟨hw.symm, hirq⟩)
    | tick => cases hport
    | edge => cases hport
    | start hirq ht3 => exact .inr (.inr ⟨.inl hw.symm, hirq, ht3⟩)
    | service _ _ hirq ht3 => exact .inr (.inr ⟨.inr hw.symm, hirq, ht3⟩)

/-- What a step can do to the interrupt state while `ie = 0` (20_memory.md R69). -/
theorem step_cases_of_ie_false {s t : State} (hie : s.irq.ie = false) (h : step s = .next t) :
    RequestsHeld s.irq t.irq ∨ ∃ w rest, s.agenda = .command w :: rest ∧
      ((w = 0x0200 ∧ t.irq = { s.irq with ie := true }) ∨
       ((w = 0x7003 ∨ w = 0x8300) ∧ t.irq = { s.irq with edgePending := false } ∧ t.tasks.t3 = ⟨true, false⟩)) := by
  obtain ⟨rest, rfl⟩ | ⟨e, rest, -, rfl⟩ | ⟨w, rest, hagenda, hissue⟩ :=
    nextMove_cases (nextMove_of_ie_false hie h)
  · exact .inl (timeStep_requestsHeld { s with agenda := rest })
  · exact .inl (envStep_requestsHeld e { s with agenda := rest })
  · obtain hheld | hexit := issueCommand_of_ie_false (s := { s with agenda := rest }) hie hissue
    · exact .inl hheld
    · exact .inr ⟨w, rest, hagenda, hexit⟩

/-- Settles O18: a step holds the requests, or takes SYS.SEI, or starts task 3. -/
theorem criticalSectionHoldsRequests : Obligations.CriticalSectionHoldsRequests := by
  intro s t hie hstep
  obtain ⟨htick, hedge, hkept⟩ | ⟨w, rest, hagenda, ⟨rfl, hirq⟩ | ⟨hw, hirq, ht3⟩⟩ := step_cases_of_ie_false hie hstep
  case inl =>
    refine ⟨htick, fun hpending hcleared => ?_, fun hset => ?_⟩
    · simp [hedge hpending] at hcleared
    · simp [hkept, hie] at hset
  case inr.inl =>
    rw [hirq]
    exact ⟨id, fun hpending hcleared => by simp [hpending] at hcleared, fun _ => ⟨rest, hagenda⟩⟩
  case inr.inr =>
    rw [hirq]
    exact ⟨id, fun _ _ => ⟨w, rest, hagenda, hw, ht3⟩, fun hset => by simp [hie] at hset⟩

end Sys2Proof.Machine
end

section
/-!
Decoder and encoder as inverses of each other, and the rows of the opcode map a word holds (30_encoding.md R81 to R88).
-/

namespace Sys2Proof

/-! ## Decoding an encoded operation -/

@[simp] theorem unitOpField_commandWord (u imm : Byte) : unitOpField (commandWord u imm) = u :=
  BitVec.extractLsb'_append_eq_left

@[simp] theorem immField_commandWord (u imm : Byte) : immField (commandWord u imm) = imm :=
  BitVec.extractLsb'_append_eq_right

/-- Each format reads from the IMM it writes the operands it wrote (R82). -/
@[simp] theorem formatV_self (f : Byte → Instr) (v : Byte) : formatV v f = .ok (f v) := rfl

@[simp] theorem formatS_immS (f : BitVec 2 → Channel → Instr) :
    ∀ sink ch, formatS (immS sink ch) f = .ok (f sink ch) := by
  have operands : ∀ sink ch, (immS sink ch).extractLsb' 5 3 = 0 ∧ (immS sink ch).extractLsb' 0 2 = sink ∧
    (immS sink ch).extractLsb' 2 3 = ch := by decide
  intro sink ch
  obtain ⟨hreserved, hsink, hch⟩ := operands sink ch
  rw [formatS, if_pos hreserved, hsink, hch]

@[simp] theorem formatU_immU (f : BitVec 2 → Instr) : ∀ x, formatU (immU x) f = .ok (f x) := by
  have operand : ∀ x, (immU x).extractLsb' 2 6 = 0 ∧ (immU x).extractLsb' 0 2 = x := by decide
  intro x
  obtain ⟨hreserved, hx⟩ := operand x
  rw [formatU, if_pos hreserved, hx]

@[simp] theorem formatC_immC (f : Channel → Instr) : ∀ ch, formatC (immC ch) f = .ok (f ch) := by
  have operand : ∀ ch, (immC ch).extractLsb' 3 5 = 0 ∧ (immC ch).extractLsb' 0 3 = ch := by decide
  intro ch
  obtain ⟨hreserved, hch⟩ := operand ch
  rw [formatC, if_pos hreserved, hch]

@[simp] theorem formatB_immB (f : Bool → Instr) : ∀ b, formatB (immB b) f = .ok (f b)
  | false => rfl
  | true => rfl

/-- Every operand at every value of its field survives the word (R82, R87); the operations, grouped by their format. -/
theorem decode_encode (i : Instr) : decode (encode i) = .ok i := by
  cases i with
  | scRegister sink ch =>
    rw [encode, decode, unitOpField_commandWord, immField_commandWord]
    exact formatS_immS _ sink ch
  | scUnregister x | taskStart x | taskStop x | taskFinished x =>
    rw [encode, decode, unitOpField_commandWord, immField_commandWord]
    exact formatU_immU _ x
  | adcSelect ch =>
    rw [encode, decode, unitOpField_commandWord, immField_commandWord]
    exact formatC_immC _ ch
  | wiStartSample b | emuWriteBit b =>
    rw [encode, decode, unitOpField_commandWord, immField_commandWord]
    exact formatB_immB _ b
  | maPush v | pdProcess v | avgProcess v | cntProcess v | taskService1 v | taskService2 v | taskService3 v
  | csrRead v =>
    rw [encode, decode, unitOpField_commandWord, immField_commandWord]
    exact formatV_self _ v
  | _ => rfl

/-- Settles O10. -/
theorem decodeAndEncodeAgree : Obligations.DecodeAndEncodeAgree :=
  ⟨decode_encode, fun _ _ => encode_of_decode⟩

/-- Settles O12: the legal words are encodings; the three illegal ones are evaluated. -/
theorem writtenOutWordsDecode : Obligations.WrittenOutWordsDecode :=
  ⟨decode_encode (.scRegister 2 3), decode_encode (.taskStart 1), decode_encode (.taskService2 9),
    decode_encode (.wiStartSample true), decode_encode (.wiStartSample false), decode_encode (.csrRead 0x10),
    decode_encode (.avgProcess 19), decode_encode .emuService, by decide, by decide, by decide⟩

/-! ## The words that hold a row

A row's mask is all of bits [15:8] and the reserved bits of IMM, so a word that holds the row is the row's UNIT and OP
with an IMM whose reserved bits are 0. -/

/-- With every bit in the mask, the row's match is the one word that holds it. -/
theorem eq_of_holds_full_mask {p w : Word} (h : OpcodeRow.holds ⟨p, 0xFFFF⟩ w = true) : p = w := by
  rw [OpcodeRow.holds, beq_iff_eq] at h
  exact h.symm.trans BitVec.and_allOnes

section
variable {u m : Byte} {w : Word}

theorem fields_of_holds (h : OpcodeRow.holds ⟨commandWord u 0, commandWord 0xFF m⟩ w = true) :
    unitOpField w = u ∧ immField w &&& m = 0 := by
  have hfields : w &&& commandWord 0xFF m = commandWord (unitOpField w) (immField w &&& m) := by
    conv_lhs => rw [← commandWord_fields w]
    exact BitVec.and_append.trans (congrArg (commandWord · _) BitVec.and_allOnes)
  rw [OpcodeRow.holds, beq_iff_eq, hfields] at h
  exact ⟨by simpa using congrArg unitOpField h, by simpa using congrArg immField h⟩

theorem reservedBits_zero_of_holds (h : OpcodeRow.holds ⟨commandWord u 0, commandWord 0xFF m⟩ w = true) :
    immField w &&& m = 0 :=
  (fields_of_holds h).2

theorem commandWord_of_holds (h : OpcodeRow.holds ⟨commandWord u 0, commandWord 0xFF m⟩ w = true) :
    commandWord u (immField w) = w := by
  obtain ⟨rfl, -⟩ := fields_of_holds h
  exact commandWord_fields w

/-- The reserved bits of IMM in the masks of the formats with an operand narrower than IMM (R82, R85). -/
theorem reservedS_zero : ∀ imm : Byte, imm &&& 0xE0 = 0 → imm.extractLsb' 5 3 = 0 := by decide

theorem reservedU_zero : ∀ imm : Byte, imm &&& 0xFC = 0 → imm.extractLsb' 2 6 = 0 := by decide

theorem reservedC_zero : ∀ imm : Byte, imm &&& 0xF8 = 0 → imm.extractLsb' 3 5 = 0 := by decide

theorem reservedB_zero : ∀ imm : Byte, imm &&& 0xFE = 0 → imm.extractLsb' 1 7 = 0 := by decide

theorem commandWord_immS_of_holds (h : OpcodeRow.holds ⟨commandWord u 0, commandWord 0xFF 0xE0⟩ w = true) :
    commandWord u (immS ((immField w).extractLsb' 0 2) ((immField w).extractLsb' 2 3)) = w := by
  rw [immS_of_reserved_zero _ (reservedS_zero _ (reservedBits_zero_of_holds h)), commandWord_of_holds h]

theorem commandWord_immU_of_holds (h : OpcodeRow.holds ⟨commandWord u 0, commandWord 0xFF 0xFC⟩ w = true) :
    commandWord u (immU ((immField w).extractLsb' 0 2)) = w := by
  rw [immU_of_reserved_zero _ (reservedU_zero _ (reservedBits_zero_of_holds h)), commandWord_of_holds h]

theorem commandWord_immC_of_holds (h : OpcodeRow.holds ⟨commandWord u 0, commandWord 0xFF 0xF8⟩ w = true) :
    commandWord u (immC ((immField w).extractLsb' 0 3)) = w := by
  rw [immC_of_reserved_zero _ (reservedC_zero _ (reservedBits_zero_of_holds h)), commandWord_of_holds h]

theorem commandWord_immB_of_holds (h : OpcodeRow.holds ⟨commandWord u 0, commandWord 0xFF 0xFE⟩ w = true) :
    commandWord u (immB ((immField w).getLsbD 0)) = w := by
  rw [immB_of_reserved_zero _ (reservedB_zero _ (reservedBits_zero_of_holds h)), commandWord_of_holds h]

end

/-! ## The row of the operation a word decodes to -/

open Laws

/-- The word of every operation holds the operation's own row (R85). -/
theorem encodesItsRow (i : Instr) : EncodesItsRow.Statement i := by
  cases i with
  | scRegister sink ch => exact EncodesItsRow.scRegister sink ch
  | scUnregister x => exact EncodesItsRow.scUnregister x
  | adcSelect ch => exact EncodesItsRow.adcSelect ch
  | taskStart x => exact EncodesItsRow.taskStart x
  | taskStop x => exact EncodesItsRow.taskStop x
  | taskFinished x => exact EncodesItsRow.taskFinished x
  | wiStartSample b => exact EncodesItsRow.wiStartSample b
  | emuWriteBit b => exact EncodesItsRow.emuWriteBit b
  | maPush v | pdProcess v | avgProcess v | cntProcess v | taskService1 v | taskService2 v | taskService3 v
  | csrRead v =>
    exact ⟨_, rfl, commandWord_row _ v⟩
  | _ => exact ⟨_, rfl, rfl⟩

/-- A word that holds an operation's row is the word of an operation of that row: the same operation, with the operands
read from IMM. -/
theorem exists_encode_of_holds {i : Instr} {r : OpcodeRow} {w : Word} (hr : opcodeRows[EncodesItsRow.row i]? = some r)
    (h : r.holds w = true) : ∃ j, encode j = w ∧ EncodesItsRow.row j = EncodesItsRow.row i := by
  cases i <;> cases hr
  case scRegister => exact ⟨.scRegister _ _, commandWord_immS_of_holds h, rfl⟩
  case scUnregister => exact ⟨.scUnregister _, commandWord_immU_of_holds h, rfl⟩
  case taskStart => exact ⟨.taskStart _, commandWord_immU_of_holds h, rfl⟩
  case taskStop => exact ⟨.taskStop _, commandWord_immU_of_holds h, rfl⟩
  case taskFinished => exact ⟨.taskFinished _, commandWord_immU_of_holds h, rfl⟩
  case adcSelect => exact ⟨.adcSelect _, commandWord_immC_of_holds h, rfl⟩
  case wiStartSample => exact ⟨.wiStartSample _, commandWord_immB_of_holds h, rfl⟩
  case emuWriteBit => exact ⟨.emuWriteBit _, commandWord_immB_of_holds h, rfl⟩
  case maPush => exact ⟨.maPush _, commandWord_of_holds (m := 0) h, rfl⟩
  case pdProcess => exact ⟨.pdProcess _, commandWord_of_holds (m := 0) h, rfl⟩
  case avgProcess => exact ⟨.avgProcess _, commandWord_of_holds (m := 0) h, rfl⟩
  case cntProcess => exact ⟨.cntProcess _, commandWord_of_holds (m := 0) h, rfl⟩
  case taskService1 => exact ⟨.taskService1 _, commandWord_of_holds (m := 0) h, rfl⟩
  case taskService2 => exact ⟨.taskService2 _, commandWord_of_holds (m := 0) h, rfl⟩
  case taskService3 => exact ⟨.taskService3 _, commandWord_of_holds (m := 0) h, rfl⟩
  case csrRead => exact ⟨.csrRead _, commandWord_of_holds (m := 0) h, rfl⟩
  all_goals
    refine ⟨_, ?_, rfl⟩
    exact eq_of_holds_full_mask h

/-- The row of the operation a word decodes to, if it decodes. -/
def decodedRow (w : Word) : Option OpcodeRow :=
  match decode w with
  | .ok i => opcodeRows[EncodesItsRow.row i]?
  | .reject _ => none

theorem decodedRow_of_decode {w : Word} {i : Instr} (h : decode w = .ok i) :
    decodedRow w = opcodeRows[EncodesItsRow.row i]? := by
  rw [decodedRow, h]

theorem exists_decode_of_decodedRow {w : Word} {r : OpcodeRow} (h : decodedRow w = some r) :
    ∃ i, decode w = .ok i ∧ opcodeRows[EncodesItsRow.row i]? = some r := by
  unfold decodedRow at h
  split at h
  · next i hi => exact ⟨i, hi, h⟩
  · cases h

/-- The rows are those of the operations: the match of each decodes to an operation of that row (R85). -/
theorem decodedRow_pattern : ∀ r ∈ opcodeRows, decodedRow r.pattern = some r := by decide

/-- A word holds one row of the map and no other: the row of what it decodes to (R85, R87). -/
theorem decodedRow_eq_some_iff {w : Word} {r : OpcodeRow} :
    decodedRow w = some r ↔ r ∈ opcodeRows ∧ r.holds w = true := by
  constructor
  · intro h
    obtain ⟨i, hi, hr⟩ := exists_decode_of_decodedRow h
    obtain ⟨r', hr', hholds⟩ := encodesItsRow i
    rw [encode_of_decode hi] at hholds
    cases hr.symm.trans hr'
    exact ⟨List.mem_of_getElem? hr, hholds⟩
  · rintro ⟨hmem, hholds⟩
    obtain ⟨i, -, hr⟩ := exists_decode_of_decodedRow (decodedRow_pattern r hmem)
    obtain ⟨j, rfl, hrow⟩ := exists_encode_of_holds hr hholds
    rw [decodedRow_of_decode (decode_encode j), hrow, hr]

theorem exists_decode_iff_exists_decodedRow {w : Word} : (∃ i, decode w = .ok i) ↔ ∃ r, decodedRow w = some r := by
  constructor
  · rintro ⟨i, hi⟩
    obtain ⟨r, hr, -⟩ := encodesItsRow i
    exact ⟨r, (decodedRow_of_decode hi).trans hr⟩
  · rintro ⟨r, hr⟩
    obtain ⟨i, hi, -⟩ := exists_decode_of_decodedRow hr
    exact ⟨i, hi⟩

/-- Settles O11: the row a word holds is the row of what it decodes to. -/
theorem decoderFollowsTheOpcodeRows : Obligations.DecoderFollowsTheOpcodeRows := by
  refine ⟨fun w => ?_, fun w r r' hr hr' hholds hholds' => ?_⟩
  · rw [exists_decode_iff_exists_decodedRow]
    exact exists_congr fun _ => decodedRow_eq_some_iff
  · have hrow : decodedRow w = some r := decodedRow_eq_some_iff.mpr ⟨hr, hholds⟩
    have hrow' : decodedRow w = some r' := decodedRow_eq_some_iff.mpr ⟨hr', hholds'⟩
    exact Option.some.inj (hrow.symm.trans hrow')

end Sys2Proof
end

section
/-!
The sample clock and the ADC (40_sampleclock.md): the two sink commands, how long a conversion takes, and the tick
handler by its three paths.
-/

namespace Sys2Proof.Machine

/-! ## The sink commands and the micro-operations (R100 to R105) -/

/-- SC.REGISTER with a legal sink operand, as the whole next state. -/
theorem exec_scRegister_of_operand {sink : BitVec 2} {k : Sink} (h : registerSinkOperand sink = some k) (ch : Channel)
    (s : State) :
    exec (.scRegister sink ch) s =
      .next { s with sc := { s.sc with sink := k, desCh := ch, settle := s.cfg.settleK }, resp := 0 } := by
  simp only [exec, execScRegister, h]
  rfl

/-- SC.REGISTER with an illegal sink operand (30_encoding.md R86 (d)). -/
theorem exec_scRegister_of_illegal {sink : BitVec 2} (h : registerSinkOperand sink = none) (ch : Channel) (s : State) :
    exec (.scRegister sink ch) s = .next (raiseFault .illegalCmd (encode (.scRegister sink ch)) s) := by
  simp only [exec, execScRegister, h]

/-- SC.UNREGISTER with a legal sink operand, as the whole next state. -/
theorem exec_scUnregister_of_operand {sink : BitVec 2} {k : Sink} (h : unregisterSinkOperand sink = some k)
    (s : State) :
    exec (.scUnregister sink) s =
      .next { s with sc := { s.sc with sink := if s.sc.sink = k then .none else s.sc.sink }, resp := 0 } := by
  simp only [exec, execScUnregister, h]
  rw [scUnregister_changes_only]
  rfl

/-- SC.UNREGISTER with an illegal sink operand (30_encoding.md R86 (d)). -/
theorem exec_scUnregister_of_illegal {sink : BitVec 2} (h : unregisterSinkOperand sink = none) (s : State) :
    exec (.scUnregister sink) s = .next (raiseFault .illegalCmd (encode (.scUnregister sink)) s) := by
  simp only [exec, execScUnregister, h]

/-- Clearing the sink if it is already clear leaves it (R105). -/
theorem clear_if_none (k : Sink) : (if k = .none then .none else k) = k := by
  split
  · next h => exact h.symm
  · rfl

/-- Settles O31: each operand value is a legal one or an illegal one, and unregistering sink 0 clears nothing. -/
theorem sinkCommandsComplete : Obligations.SinkCommandsComplete := by
  intro s ch
  refine ⟨exec_scRegister_of_operand rfl ch s, exec_scRegister_of_operand rfl ch s,
    exec_scRegister_of_illegal rfl ch s, exec_scRegister_of_illegal rfl ch s, ?unregisterNone,
    exec_scUnregister_of_operand rfl s, exec_scUnregister_of_operand rfl s, exec_scUnregister_of_illegal rfl s⟩
  case unregisterNone => rw [exec_scUnregister_of_operand rfl s, clear_if_none]

/-- Settles O32: each arm of `exec` is its micro-operation, and the operation is its rule's assignment. -/
theorem adcMicroOperationsComplete : Obligations.AdcMicroOperationsComplete :=
  fun _ _ => ⟨rfl, rfl, ⟨rfl, rfl⟩, rfl, rfl⟩

/-! ## A conversion (R101, 20_memory.md R70 step 2) -/

@[simp] theorem timeStep_pins (s : State) : (timeStep s).pins = s.pins := by
  rw [timeStep_changes_only]

/-- Only part 2 of a time-base step writes the converter, and no part before it writes what that part reads. -/
theorem timeStep_adc (s : State) : (timeStep s).adc = (advanceAdc s).adc := by
  unfold timeStep
  rw [advanceBitWriter_changes_only, advanceTick_changes_only, advanceTasks_changes_only, advanceClocks_changes_only]
  unfold advanceAdc
  dsimp only
  split
  · split <;> rfl
  · rfl

/-- A conversion with more than one microsecond left counts one down. -/
theorem timeStep_adc_of_counting {s : State} (hbusy : s.adc.busy = true) (hremain : s.adc.remain - 1 ≠ 0) :
    (timeStep s).adc = { s.adc with remain := s.adc.remain - 1 } := by
  rw [timeStep_adc, advanceAdc, if_pos hbusy]
  exact congrArg State.adc (if_neg hremain)

/-- A conversion with one microsecond left ends with the level of the channel it latched (00_scope.md R19). -/
theorem timeStep_adc_of_last {s : State} (hbusy : s.adc.busy = true) (hremain : s.adc.remain - 1 = 0) :
    (timeStep s).adc =
      { s.adc with remain := 0, busy := false, result := s.pins.ain[s.adc.convCh.toFin] } := by
  rw [timeStep_adc, advanceAdc, if_pos hbusy]
  exact congrArg State.adc (if_pos hremain)

@[simp] theorem timeSteps_pins (n : Nat) (s : State) : (timeSteps n s).pins = s.pins := by
  induction n with
  | zero => rfl
  | succ n ih => rw [timeSteps_succ, timeStep_pins, ih]

/-- A running conversion before its end: it has counted the steps down. -/
theorem timeSteps_adc_of_lt {s : State} (hbusy : s.adc.busy = true) {n : Nat} (hn : n < s.adc.remain.toNat) :
    (timeSteps n s).adc = { s.adc with remain := s.adc.remain - BitVec.ofNat 16 n } := by
  induction n with
  | zero => simp [timeSteps]
  | succ n ih =>
    have hadc := ih (by omega)
    have hremain : s.adc.remain - BitVec.ofNat 16 n - 1 = s.adc.remain - BitVec.ofNat 16 (n + 1) := by bv_omega
    have hmore : s.adc.remain - BitVec.ofNat 16 (n + 1) ≠ 0 := by bv_omega
    rw [timeSteps_succ, timeStep_adc_of_counting (by rw [hadc, hbusy]) (by rwa [hadc, hremain]), hadc, hremain]

/-- A running conversion at its end. -/
theorem timeSteps_adc_of_eq {s : State} (hbusy : s.adc.busy = true) {n : Nat} (hn : n + 1 = s.adc.remain.toNat) :
    (timeSteps (n + 1) s).adc =
      { s.adc with remain := 0, busy := false, result := s.pins.ain[s.adc.convCh.toFin] } := by
  have hadc := timeSteps_adc_of_lt hbusy (n := n) (by omega)
  have hlast : s.adc.remain - BitVec.ofNat 16 n - 1 = 0 := by bv_omega
  rw [timeSteps_succ, timeStep_adc_of_last (by rw [hadc, hbusy]) (by rwa [hadc])]
  simp [hadc]

/-- Settles O26: ADC.START puts P_ADC_CONV_US microseconds on the countdown. -/
theorem conversionTakesItsTime : Obligations.ConversionTakesItsTime := by
  intro s n hpos hn
  refine ⟨adcStart s, rfl, ?_⟩
  rintro _ rfl
  obtain hlt | heq := Nat.lt_or_eq_of_le hn
  · rw [timeSteps_adc_of_lt (s := adcStart s) rfl hlt]
    simp [adcStart, hlt]
  · obtain ⟨m, rfl⟩ := Nat.exists_eq_succ_of_ne_zero (by omega : n ≠ 0)
    rw [timeSteps_adc_of_eq (s := adcStart s) rfl heq]
    simp [adcStart, ← heq]

/-! ## The tick handler (R110) -/

/-- `stale_cnt` saturates (10_state.md R28). -/
theorem saturatingSucc_eq (n : Word) :
    BitVec.ofNat 16 (min (n.toNat + 1) 0xFFFF) = if n = 0xFFFF then 0xFFFF else n + 1 := by
  split
  · next h => rw [h]; rfl
  · next h =>
    have hn : n.toNat ≠ 0xFFFF := fun hmax => h (BitVec.eq_of_toNat_eq hmax)
    rw [Nat.min_eq_left (by omega), BitVec.ofNat_add, BitVec.ofNat_toNat, BitVec.setWidth_eq]
    rfl

/-- A stale tick. -/
theorem tickHandler_of_busy {s : State} (hbusy : s.adc.busy = true) :
    tickHandler s =
      { s with
        irq := { s.irq with tickPending := false }
        sc := { s.sc with staleCnt := if s.sc.staleCnt = 0xFFFF then 0xFFFF else s.sc.staleCnt + 1 } } := by
  have hready : adcReady (clearTickPending s) = false := by simp [adcReady, clearTickPending, hbusy]
  simp only [tickHandler, hready, countStale, saturatingSucc_eq]
  rfl

/-- A non-stale tick, by the settle countdown. Step 4e has switched the multiplexer under EARLY, and step 4
switches it in either mode. -/
theorem tickHandler_of_ready {s : State} (hbusy : s.adc.busy = false) :
    tickHandler s =
      if s.sc.settle ≠ 0 then
        adcStart { s with
          irq := { s.irq with tickPending := false }
          sc := { s.sc with
            settle := s.sc.settle - 1, curCh := if s.cfg.muxSwitch = .early then s.sc.desCh else s.sc.curCh } }
      else
        deliverSample s.adc.result (adcStart { s with
          irq := { s.irq with tickPending := false }
          sc := { s.sc with curCh := s.sc.desCh } }) := by
  have hready : adcReady (clearTickPending s) = true := by simp [adcReady, clearTickPending, hbusy]
  simp only [tickHandler, hready, reprogramMux_changes_only]
  by_cases hmux : s.cfg.muxSwitch = .early
  · simp [clearTickPending, adcRead, hmux]
  · simp [clearTickPending, adcRead, hmux]

/-- A settling tick, in both multiplexer modes. -/
theorem tickHandler_of_settling {s : State} (hbusy : s.adc.busy = false) (hsettle : s.sc.settle ≠ 0) {ch : Channel}
    (hch : ch = if s.cfg.muxSwitch = .early then s.sc.desCh else s.sc.curCh) :
    tickHandler s =
      { s with
        irq := { s.irq with tickPending := false }
        sc := { s.sc with settle := s.sc.settle - 1, curCh := ch }
        adc := { s.adc with busy := true, remain := s.cfg.adcConvUs, convCh := ch } } := by
  rw [tickHandler_of_ready hbusy, if_pos hsettle, hch]
  rfl

/-- The state in which a delivering tick gives its sample away: the next conversion runs on the desired channel. -/
def beforeDelivery (s : State) : State :=
  { s with
    irq := { s.irq with tickPending := false }
    sc := { s.sc with curCh := s.sc.desCh }
    adc := { s.adc with busy := true, remain := s.cfg.adcConvUs, convCh := s.sc.desCh } }

/-- A delivering tick. -/
theorem tickHandler_of_delivering {s : State} (hbusy : s.adc.busy = false) (hsettle : s.sc.settle = 0) :
    tickHandler s = deliverSample s.adc.result (beforeDelivery s) := by
  rw [tickHandler_of_ready hbusy, if_neg (not_not_intro hsettle)]
  rfl

theorem deliverSample_of_none {s : State} (h : s.sc.sink = .none) (v : Byte) : deliverSample v s = s := by
  rw [deliverSample, h]

theorem deliverSample_of_speed {s : State} (h : s.sc.sink = .speed) (v : Byte) :
    deliverSample v s = taskService1 v s := by
  rw [deliverSample, h]

theorem deliverSample_of_direction {s : State} (h : s.sc.sink = .direction) (v : Byte) :
    deliverSample v s = taskService2 v s := by
  rw [deliverSample, h]

/-- Settles O33: the three paths, the last by the sink. -/
theorem tickHandlerPaths : Obligations.TickHandlerPaths := by
  intro s
  refine ⟨fun hbusy => congrArg _ (tickHandler_of_busy hbusy),
    fun hbusy hsettle ch hch => congrArg _ (tickHandler_of_settling hbusy hsettle hch), fun hbusy hsettle => ?_⟩
  rintro _ rfl
  have hdeliver : exec .evTick s = .next (deliverSample s.adc.result (beforeDelivery s)) :=
    congrArg _ (tickHandler_of_delivering hbusy hsettle)
  rw [hdeliver]
  exact ⟨fun h => congrArg _ (deliverSample_of_none (s := beforeDelivery s) h _),
    fun h => congrArg _ (deliverSample_of_speed (s := beforeDelivery s) h _),
    fun h => congrArg _ (deliverSample_of_direction (s := beforeDelivery s) h _)⟩

/-! ## Settling over several ticks (R111) -/

/-- `n` non-stale ticks and any stale ones, all counted by the settle countdown: no sample has reached a task. -/
structure TicksCounted (n : Nat) (s t : State) : Prop where
  settle : t.sc.settle.toNat + n = s.sc.settle.toNat
  sink : t.sc.sink = s.sc.sink
  desCh : t.sc.desCh = s.sc.desCh
  ma : t.ma = s.ma
  pd : t.pd = s.pd
  avg : t.avg = s.avg
  cntCount : t.cntCount = s.cntCount
  tasks : t.tasks = s.tasks

theorem TicksCounted.refl (s : State) : TicksCounted 0 s s := ⟨rfl, rfl, rfl, rfl, rfl, rfl, rfl, rfl⟩

theorem TicksCounted.trans {m n : Nat} {s t u : State} (h : TicksCounted m s t) (h' : TicksCounted n t u) :
    TicksCounted (m + n) s u where
  settle := by rw [← h.settle, ← h'.settle]; omega
  sink := h'.sink.trans h.sink
  desCh := h'.desCh.trans h.desCh
  ma := h'.ma.trans h.ma
  pd := h'.pd.trans h.pd
  avg := h'.avg.trans h.avg
  cntCount := h'.cntCount.trans h.cntCount
  tasks := h'.tasks.trans h.tasks

/-- A stale tick counts nothing. -/
theorem tickAt_none_counted (s : State) : TicksCounted 0 s (Claims.tickAt none s) := by
  rw [Claims.tickAt, tickHandler_of_busy rfl]
  exact ⟨rfl, rfl, rfl, rfl, rfl, rfl, rfl, rfl⟩

/-- The state in which EV.TICK finds a conversion completed with sample `v`. -/
def conversionCompleted (v : Byte) (s : State) : State := { s with adc := { s.adc with busy := false, result := v } }

theorem tickAt_some (v : Byte) (s : State) : Claims.tickAt (some v) s = tickHandler (conversionCompleted v s) := rfl

/-- A non-stale tick counts one down, and drops its sample. -/
theorem tickAt_some_counted (v : Byte) {s : State} (hsettle : s.sc.settle ≠ 0) :
    TicksCounted 1 s (Claims.tickAt (some v) s) := by
  have hpred : (s.sc.settle - 1).toNat + 1 = s.sc.settle.toNat := by bv_omega
  rw [tickAt_some, tickHandler_of_settling (s := conversionCompleted v s) rfl hsettle rfl]
  exact ⟨hpred, rfl, rfl, rfl, rfl, rfl, rfl, rfl⟩

/-- The countdown outlasts any ticks with no more non-stale ones than it has left. -/
theorem ticks_counted (es : List (Option Byte)) {s : State}
    (hle : (es.filter Option.isSome).length ≤ s.sc.settle.toNat) :
    TicksCounted (es.filter Option.isSome).length s (es.foldl (fun s e => Claims.tickAt e s) s) := by
  induction es generalizing s with
  | nil => exact .refl s
  | cons e es ih =>
    cases e with
    | none =>
      have hfirst := tickAt_none_counted s
      have hrest := ih (s := Claims.tickAt none s) (by rw [← hfirst.settle] at hle; exact hle)
      simpa using hfirst.trans hrest
    | some v =>
      have hlen : ((some v :: es).filter Option.isSome).length = 1 + (es.filter Option.isSome).length := by
        simp [Nat.add_comm]
      rw [hlen] at hle ⊢
      have hfirst := tickAt_some_counted v (s := s) (fun h => by simp [h] at hle)
      have hrest := ih (s := Claims.tickAt (some v) s) (by have := hfirst.settle; omega)
      exact hfirst.trans hrest

/-- With the countdown at 0 a non-stale tick delivers its sample. -/
theorem tickAt_some_of_settled (v : Byte) {s : State} (hsettle : s.sc.settle = 0) :
    Claims.tickAt (some v) s = deliverSample v (beforeDelivery (conversionCompleted v s)) :=
  tickHandler_of_delivering (s := conversionCompleted v s) rfl hsettle

/-- Task 1's service neither reads nor writes the requests, the sample clock and the converter (42_tasks.md R175). -/
theorem taskService1_frame (v : Byte) (s : State) (irq : Interrupts) (sc : SampleClock) (adc : Adc) :
    taskService1 v { s with irq := irq, sc := sc, adc := adc } =
      { taskService1 v s with irq := irq, sc := sc, adc := adc } := by
  unfold taskService1
  dsimp only
  split <;> rfl

/-- The averager is apart from them too (41_filters.md R151). -/
theorem avgProcess_frame (v : Byte) (s : State) (irq : Interrupts) (sc : SampleClock) (adc : Adc) :
    avgProcess v { s with irq := irq, sc := sc, adc := adc } =
      { avgProcess v s with irq := irq, sc := sc, adc := adc } := by
  unfold avgProcess
  dsimp only
  split <;> rfl

/-- And so task 2's service (42_tasks.md R176). -/
theorem taskService2_frame (v : Byte) (s : State) (irq : Interrupts) (sc : SampleClock) (adc : Adc) :
    taskService2 v { s with irq := irq, sc := sc, adc := adc } =
      { taskService2 v s with irq := irq, sc := sc, adc := adc } := by
  unfold taskService2
  rw [avgProcess_frame]
  dsimp only
  split
  · split <;> rfl
  · rfl

/-- Settles O34: the countdown by induction on the ticks, then one delivering tick. -/
theorem settleCountsNonStaleTicks : Obligations.SettleCountsNonStaleTicks := by
  intro es s t ht hle
  have hcounted := ticks_counted es hle
  rw [← ht] at hcounted
  refine ⟨by rw [← hcounted.settle]; omega, hcounted.sink, hcounted.desCh, hcounted.ma, hcounted.pd, hcounted.avg,
    hcounted.cntCount, hcounted.tasks, fun hsettle v => ?_⟩
  rw [tickAt_some_of_settled v hsettle]
  constructor
  · intro hspeed
    have hservice : taskService1 v (beforeDelivery (conversionCompleted v t)) = _ := taskService1_frame v t _ _ _
    rw [deliverSample_of_speed (s := beforeDelivery (conversionCompleted v t)) hspeed, hservice]
    exact ⟨rfl, rfl, rfl⟩
  · intro hdirection
    have hservice : taskService2 v (beforeDelivery (conversionCompleted v t)) = _ := taskService2_frame v t _ _ _
    rw [deliverSample_of_direction (s := beforeDelivery (conversionCompleted v t)) hdirection, hservice]
    exact ⟨rfl, rfl⟩

end Sys2Proof.Machine
end

section
/-!
The filters (41_filters.md): what each command does, the ring read from its oldest entry to its newest, and what a run
of samples leaves in the ring, in the pulse detector and in the averager.
-/

namespace Sys2Proof.Machine

/-! ## Operations in a row -/

theorem runAll_cons_of_next {i : Instr} {s t : State} (h : exec i s = .next t) (is : List Instr) :
    Claims.runAll (i :: is) s = Claims.runAll is t := by
  simp only [Claims.runAll, h]

/-- One command over a list of samples, where the command always goes on. -/
theorem runAll_map_of_next {f : Byte → Instr} {g : State → Byte → State} (h : ∀ v s, exec (f v) s = .next (g s v))
    (vs : List Byte) (s : State) : Claims.runAll (vs.map f) s = .next (vs.foldl g s) := by
  induction vs generalizing s with
  | nil => rfl
  | cons v vs ih => rw [List.map_cons, runAll_cons_of_next (h v s), ih, List.foldl_cons]

/-! ## The moving average (R130 to R133) -/

theorem maPush_buf (v : Byte) (s : State) : (maPush v s).ma.buf = s.ma.buf.set s.ma.idx.toNat v := rfl

/-- The place after the newest entry, without the width of the field (R131). -/
theorem maPush_idx {s : State} (h : RingSound s.cfg s.ma) (v : Byte) :
    (maPush v s).ma.idx.toNat = (s.ma.idx.toNat + 1) % s.cfg.maWidth.toNat := by
  obtain ⟨-, hidx, -, -⟩ := h
  have hlt : (s.ma.idx.toNat + 1) % s.cfg.maWidth.toNat < s.cfg.maWidth.toNat := Nat.mod_lt _ (by omega)
  exact Nat.mod_eq_of_lt (hlt.trans s.cfg.maWidth.isLt)

/-- The fill grows up to W, without the width of the field (R131). -/
theorem maPush_fill (v : Byte) (s : State) :
    (maPush v s).ma.fill.toNat = min (s.ma.fill.toNat + 1) s.cfg.maWidth.toNat :=
  Nat.mod_eq_of_lt (by have := s.cfg.maWidth.isLt; omega)

/-- The average fits the response word, as the sum does (R133). -/
theorem maAverage_toNat (s : State) : (maAverage s).toNat = s.ma.sum.toNat / s.cfg.maWidth.toNat :=
  Nat.mod_eq_of_lt ((Nat.div_le_self _ _).trans_lt s.ma.sum.isLt)

/-- Settles O37: a push by its fields, its sum bounded because the ring stays sound. -/
theorem movingAverageCommandsComplete : Obligations.MovingAverageCommandsComplete := by
  intro s
  refine ⟨rfl, rfl, ⟨_, rfl, rfl, maAverage_toNat s⟩, fun hring v old hold => ?_⟩
  exact ⟨_, rfl, rfl, rfl, maPush_sum v old s hring hold, (maPush_ring v s hring).sum_le, maPush_idx hring v,
    maPush_fill v s⟩

/-! ## The ring over several pushes (R131, R134) -/

/-- The entries of the ring, the oldest first: the index stands at the oldest (R131). -/
def ringEntries (m : MovingAverage) : List Byte := m.buf.rotate m.idx.toNat

theorem ringEntries_length (m : MovingAverage) : (ringEntries m).length = m.buf.length := List.length_rotate _ _

/-- `ma_sum` does not depend on where the ring begins. -/
theorem RingSound.sum_entries {p : Params} {m : MovingAverage} (h : RingSound p m) :
    m.sum.toNat = ((ringEntries m).map BitVec.toNat).sum := by
  obtain ⟨-, -, -, hsum⟩ := h
  rw [hsum]
  exact ((List.rotate_perm _ _).map _).sum_nat.symm

/-- Replacing the first entry of a rotated list and rotating once more drops it and appends the new one. -/
theorem rotate_succ_set {l : List Byte} {i : Nat} (hi : i < l.length) (v : Byte) :
    (l.set i v).rotate (i + 1) = (l.rotate i).tail ++ [v] := by
  rw [List.rotate_eq_drop_append_take (by simpa using hi), List.rotate_eq_drop_append_take hi.le,
    List.drop_set_of_lt (by omega), List.take_add_one, List.take_set_of_le le_rfl,
    List.drop_eq_getElem_cons hi]
  simp [hi]

/-- A push drops the oldest entry and appends the new one (R131). -/
theorem maPush_entries {s : State} (h : RingSound s.cfg s.ma) (v : Byte) :
    ringEntries (maPush v s).ma = (ringEntries s.ma).tail ++ [v] := by
  have hidx := maPush_idx h v
  obtain ⟨hlen, hlt, -, -⟩ := h
  rw [ringEntries, hidx, ← hlen, maPush_buf, ← List.length_set (i := s.ma.idx.toNat) (a := v), List.rotate_mod]
  exact rotate_succ_set (by omega) v

/-- The ring `m'` that the pushes `vs` make of the ring `m`. -/
structure Pushed (p : Params) (vs : List Byte) (m m' : MovingAverage) : Prop where
  sound : RingSound p m'
  entries : ringEntries m' = (ringEntries m ++ vs).drop vs.length
  idx : m'.idx.toNat = (m.idx.toNat + vs.length) % p.maWidth.toNat
  fill : m'.fill.toNat = min (m.fill.toNat + vs.length) p.maWidth.toNat

theorem Pushed.refl {p : Params} {m : MovingAverage} (h : RingSound p m) : Pushed p [] m m where
  sound := h
  entries := by simp
  idx := by obtain ⟨-, hidx, -, -⟩ := h; exact (Nat.mod_eq_of_lt hidx).symm
  fill := by obtain ⟨-, -, hfill, -⟩ := h; exact (Nat.min_eq_left hfill).symm

theorem Pushed.trans {p : Params} {vs ws : List Byte} {m m' m'' : MovingAverage} (h : Pushed p vs m m')
    (h' : Pushed p ws m' m'') : Pushed p (vs ++ ws) m m'' where
  sound := h'.sound
  entries := by
    rw [h'.entries, h.entries, ← List.drop_append_of_le_length (by simp), List.drop_drop, List.append_assoc,
      List.length_append]
  idx := by rw [h'.idx, h.idx, Nat.mod_add_mod, Nat.add_assoc, List.length_append]
  fill := by rw [h'.fill, h.fill, List.length_append]; omega

theorem maPush_pushed {s : State} (h : RingSound s.cfg s.ma) (v : Byte) :
    Pushed s.cfg [v] s.ma (maPush v s).ma where
  sound := maPush_ring v s h
  entries := by
    have hpos : 0 < (ringEntries s.ma).length := by
      obtain ⟨hlen, hlt, -, -⟩ := h
      rw [ringEntries_length]; omega
    rw [maPush_entries h, List.length_singleton, List.drop_append_of_le_length hpos, List.drop_one]
  idx := maPush_idx h v
  fill := maPush_fill v s

/-- The sum is that of the newest entries, of the pushes and of what the ring held before them. -/
theorem Pushed.sum {p : Params} {vs : List Byte} {m m' : MovingAverage} (h : Pushed p vs m m') :
    m'.sum.toNat = (((ringEntries m ++ vs).drop vs.length).map BitVec.toNat).sum := by
  rw [h.sound.sum_entries, h.entries]

theorem exec_maPush (v : Byte) (s : State) : exec (.maPush v) s = .next (respond 0 (maPush v s)) := rfl

/-- MA.PUSH over a list of values, with the response of each. -/
def pushAll (vs : List Byte) (s : State) : State := vs.foldl (fun s v => respond 0 (maPush v s)) s

theorem pushAll_pushed (vs : List Byte) {s : State} (h : RingSound s.cfg s.ma) :
    Pushed s.cfg vs s.ma (pushAll vs s).ma := by
  induction vs generalizing s with
  | nil => exact .refl h
  | cons v vs ih => exact (maPush_pushed h v).trans (ih (s := respond 0 (maPush v s)) (maPush_ring v s h))

/-- Settles O38: W pushes leave nothing of the ring's W old entries. -/
theorem fullWindowSumsTheLastValues : Obligations.FullWindowSumsTheLastValues := by
  intro s vs hring hlen
  have hpushed := pushAll_pushed vs hring
  obtain ⟨hbuf, hidx, -, -⟩ := hring
  refine ⟨pushAll vs s, runAll_map_of_next exec_maPush vs s, ?_, ?_, ?_⟩
  · have hold : vs.length = (ringEntries s.ma).length := by rw [ringEntries_length, hbuf, hlen]
    rw [hpushed.sum, hold, List.drop_left]
  · apply BitVec.eq_of_toNat_eq
    rw [hpushed.idx, hlen, Nat.add_mod_right, Nat.mod_eq_of_lt hidx]
  · apply BitVec.eq_of_toNat_eq
    rw [hpushed.fill, hlen]
    omega

/-! ## The pulse detector (R140 to R142) -/

/-- Step 2 of R141. -/
theorem pdProcess_ma (v : Byte) (s : State) : (pdProcess v s).ma = (maPush (lowBit s.cfg v) s).ma := rfl

/-- Step 3 of R141. -/
theorem pdProcess_asserted_iff (v : Byte) (s : State) :
    (pdProcess v s).pd.asserted = true ↔
      s.cfg.pdThresh.toNat ≤ (maPush (lowBit s.cfg v) s).ma.sum.toNat := decide_eq_true_iff

/-- Step 1 of R141: the counter stops at 0. -/
theorem debounceDecrement_toNat (deb : Byte) : (debounceDecrement deb).toNat = deb.toNat - 1 := by
  unfold debounceDecrement
  split <;> bv_omega

/-- Step 4 of R141. -/
theorem pdProcess_fired_iff (v : Byte) (s : State) :
    (pdProcess v s).pd.fired = true ↔ (pdProcess v s).pd.asserted = true ∧ s.pd.deb.toNat ≤ 1 := by
  have hzero : debounceDecrement s.pd.deb = 0#8 ↔ s.pd.deb.toNat ≤ 1 := by
    rw [← BitVec.toNat_inj, debounceDecrement_toNat, BitVec.toNat_ofNat]
    omega
  simp [pdProcess, pulseFired, hzero]

/-- The counter is reloaded on a fire, and else keeps its decrement (R141). -/
theorem pdProcess_deb (v : Byte) (s : State) :
    (pdProcess v s).pd.deb.toNat =
      if (pdProcess v s).pd.fired then s.cfg.pdDebounce.toNat else s.pd.deb.toNat - 1 := by
  rw [← debounceDecrement_toNat]
  exact apply_ite BitVec.toNat _ _ _

/-- A fire counts one pulse (R141). -/
theorem pdProcess_t1Pulses (v : Byte) (s : State) :
    (pdProcess v s).tasks.t1Pulses = s.tasks.t1Pulses + if (pdProcess v s).pd.fired then 1 else 0 := by
  rw [add_ite, add_zero]
  rfl

theorem pdResponse_toNat (s : State) :
    (pdResponse s).toNat = (if s.pd.asserted then 2 else 0) + (if s.pd.fired then 1 else 0) := by
  unfold pdResponse
  cases s.pd.asserted <;> cases s.pd.fired <;> rfl

/-- Settles O39: the detector's registers by the steps of R141, the ring by the push it makes. -/
theorem pulseDetectorCommandsComplete : Obligations.PulseDetectorCommandsComplete := by
  intro s v
  exact ⟨rfl, _, _, rfl, rfl, rfl, pdProcess_asserted_iff v s, pdProcess_fired_iff v s, pdProcess_deb v s,
    pdProcess_t1Pulses v s, pdResponse_toNat (pdProcess v s)⟩

/-! ## A run of low samples in exact mode (R143) -/

/-- The fires of `n` low samples after a clear, for a window of `w` and a debounce of `d` (R143). -/
def lowRunFires (w d n : Nat) : Nat :=
  if n < w then 0 else if d = 0 then n - w + 1 else (n - w) / d + 1

/-- The debounce counter after them: reloaded at each fire, and counted down in between. -/
def lowRunDebounce (w d n : Nat) : Nat := if n < w then 0 else d - (n - w) % d

/-- The next low sample fires. -/
def lowRunFiresNext (w d n : Nat) : Prop := w ≤ n + 1 ∧ lowRunDebounce w d n ≤ 1

theorem succ_div_mod_of_lt {m d : Nat} (h : m % d + 1 < d) : (m + 1) / d = m / d ∧ (m + 1) % d = m % d + 1 :=
  (Nat.div_mod_unique (by omega)).2 ⟨by have := Nat.mod_add_div m d; omega, h⟩

theorem succ_div_mod_of_eq {m d : Nat} (h : m % d + 1 = d) : (m + 1) / d = m / d + 1 ∧ (m + 1) % d = 0 :=
  (Nat.div_mod_unique (by omega)).2 ⟨by have := Nat.mod_add_div m d; rw [Nat.mul_succ]; omega, by omega⟩

theorem lowRunFires_of_lt {w n : Nat} (h : n < w) (d : Nat) : lowRunFires w d n = 0 := if_pos h

theorem lowRunDebounce_of_lt {w n : Nat} (h : n < w) (d : Nat) : lowRunDebounce w d n = 0 := if_pos h

theorem lowRunFires_add (w d m : Nat) : lowRunFires w d (w + m) = if d = 0 then m + 1 else m / d + 1 := by
  simp [lowRunFires]

theorem lowRunDebounce_add (w d m : Nat) : lowRunDebounce w d (w + m) = d - m % d := by
  simp [lowRunDebounce]

theorem lowRun_succ_of_fire {w d n : Nat} (h : lowRunFiresNext w d n) :
    lowRunFires w d (n + 1) = lowRunFires w d n + 1 ∧ lowRunDebounce w d (n + 1) = d := by
  obtain ⟨hfull, hdeb⟩ := h
  obtain rfl | hlater := Nat.eq_or_lt_of_le hfull
  · have hfires := lowRunFires_add (n + 1) d 0
    have hreload := lowRunDebounce_add (n + 1) d 0
    rw [Nat.zero_div, ite_self] at hfires
    rw [lowRunFires_of_lt (Nat.lt_succ_self n)]
    exact ⟨hfires, hreload⟩
  · obtain ⟨m, rfl⟩ := Nat.exists_eq_add_of_le (Nat.le_of_lt_succ hlater)
    rw [lowRunDebounce_add] at hdeb
    rw [Nat.add_assoc, lowRunFires_add, lowRunFires_add, lowRunDebounce_add]
    obtain rfl | hpos := Nat.eq_zero_or_pos d
    · simp
    · have hlt := Nat.mod_lt m hpos
      obtain ⟨hdiv, hmod⟩ := succ_div_mod_of_eq (m := m) (d := d) (by omega)
      simp [hdiv, hmod, hpos.ne']

theorem lowRun_succ_of_not_fire {w d n : Nat} (h : ¬ lowRunFiresNext w d n) :
    lowRunFires w d (n + 1) = lowRunFires w d n ∧ lowRunDebounce w d (n + 1) = lowRunDebounce w d n - 1 := by
  obtain hfilling | hfull := Nat.lt_or_ge (n + 1) w
  · have hn : n < w := by omega
    simp only [lowRunFires_of_lt, lowRunDebounce_of_lt, hfilling, hn, and_self]
  · have hdeb : 1 < lowRunDebounce w d n := Nat.lt_of_not_le fun hle => h ⟨hfull, hle⟩
    have hn : w ≤ n := Nat.le_of_not_lt fun hlt => by rw [lowRunDebounce_of_lt hlt] at hdeb; omega
    obtain ⟨m, rfl⟩ := Nat.exists_eq_add_of_le hn
    rw [lowRunDebounce_add] at hdeb
    obtain ⟨hdiv, hmod⟩ := succ_div_mod_of_lt (m := m) (d := d) (by omega)
    have hd : d ≠ 0 := by omega
    rw [Nat.add_assoc, lowRunFires_add, lowRunFires_add, lowRunDebounce_add, lowRunDebounce_add, if_neg hd, if_neg hd,
      hdiv, hmod, Nat.sub_add_eq]
    exact ⟨rfl, rfl⟩

/-- What `n` low samples after PD.CLEAR in `s` leave. -/
structure LowRun (n : Nat) (s t : State) : Prop where
  cfg : t.cfg = s.cfg
  ring : Pushed s.cfg (List.replicate n 1) (maClear s).ma t.ma
  deb : t.pd.deb.toNat = lowRunDebounce s.cfg.maWidth.toNat s.cfg.pdDebounce.toNat n
  pulses : t.tasks.t1Pulses =
    s.tasks.t1Pulses + BitVec.ofNat 8 (lowRunFires s.cfg.maWidth.toNat s.cfg.pdDebounce.toNat n)

/-- The priming zeros leave one by one (R134). -/
theorem Pushed.sum_of_ones {n : Nat} {s : State} {m : MovingAverage}
    (h : Pushed s.cfg (List.replicate n 1) (maClear s).ma m) : m.sum.toNat = min n s.cfg.maWidth.toNat := by
  rw [h.sum]
  simp [ringEntries, maClear, List.drop_append]
  omega

theorem pdClear_lowRun {s : State} (h : 1 ≤ s.cfg.maWidth.toNat) : LowRun 0 s (respond 0 (pdClear s)) where
  cfg := rfl
  ring := .refl (maClear_ring s h)
  deb := by rw [lowRunDebounce, if_pos (Nat.lt_of_succ_le h)]; rfl
  pulses := by rw [lowRunFires, if_pos (Nat.lt_of_succ_le h)]; exact (BitVec.add_zero _).symm

/-- PD.PROCESS with its response. -/
def pdStep (s : State) (v : Byte) : State := respond (pdResponse (pdProcess v s)) (pdProcess v s)

theorem exec_pdProcess (v : Byte) (s : State) : exec (.pdProcess v) s = .next (pdStep s v) := rfl

theorem LowRun.succ {n : Nat} {s t : State} (h : LowRun n s t) (hexact : s.cfg.pdThresh = s.cfg.maWidth) {v : Byte}
    (hlow : v.toNat ≤ s.cfg.pdLow.toNat) : LowRun (n + 1) s (pdStep t v) := by
  have hbit : lowBit t.cfg v = 1 := by rw [h.cfg]; exact if_pos hlow
  have hring : Pushed s.cfg (List.replicate (n + 1) 1) (maClear s).ma (pdProcess v t).ma := by
    have hpush := maPush_pushed (s := t) (by rw [h.cfg]; exact h.ring.sound) 1
    rw [h.cfg] at hpush
    rw [List.replicate_succ', pdProcess_ma, hbit]
    exact h.ring.trans hpush
  have hfired : (pdProcess v t).pd.fired = true ↔
      lowRunFiresNext s.cfg.maWidth.toNat s.cfg.pdDebounce.toNat n := by
    have hasserted := pdProcess_asserted_iff v t
    rw [← pdProcess_ma, hring.sum_of_ones, h.cfg, hexact] at hasserted
    rw [pdProcess_fired_iff, hasserted, h.deb, lowRunFiresNext]
    omega
  refine ⟨h.cfg, hring, ?_, ?_⟩
  · rw [pdStep, respond_pd, pdProcess_deb, h.cfg, h.deb]
    split
    · next hf => exact (lowRun_succ_of_fire (hfired.1 hf)).2.symm
    · next hf => exact (lowRun_succ_of_not_fire (mt hfired.2 hf)).2.symm
  · rw [pdStep, respond_tasks, pdProcess_t1Pulses, h.pulses]
    split
    · next hf => rw [(lowRun_succ_of_fire (hfired.1 hf)).1, BitVec.ofNat_add, BitVec.add_assoc]; rfl
    · next hf => rw [(lowRun_succ_of_not_fire (mt hfired.2 hf)).1, add_zero]

/-- Every low sample takes the run one further. -/
theorem LowRun.append {n : Nat} {s t : State} (h : LowRun n s t) (hexact : s.cfg.pdThresh = s.cfg.maWidth)
    (vs : List Byte) (hlow : ∀ v ∈ vs, v.toNat ≤ s.cfg.pdLow.toNat) : LowRun (n + vs.length) s (vs.foldl pdStep t) := by
  induction vs generalizing n t with
  | nil => exact h
  | cons v vs ih =>
    obtain ⟨hv, hvs⟩ := List.forall_mem_cons.1 hlow
    rw [List.length_cons, Nat.add_comm vs.length, ← Nat.add_assoc]
    exact ih (h.succ hexact hv) hvs

/-- Settles O40: the run from its clear, sample by sample. -/
theorem lowRunFiresByDebounceSpacing : Obligations.LowRunFiresByDebounceSpacing := by
  intro s vs hlegal hexact hlow hlen
  obtain ⟨-, -, hthresh, hwidth, -⟩ := (legalParams_iff s.cfg).1 hlegal
  have hrun := (pdClear_lowRun (hthresh.trans hwidth)).append hexact vs hlow
  refine ⟨vs.foldl pdStep (respond 0 (pdClear s)), ?_, ?_⟩
  · rw [runAll_cons_of_next rfl]
    exact runAll_map_of_next exec_pdProcess vs _
  · have hzero : s.cfg.pdDebounce = 0 ↔ s.cfg.pdDebounce.toNat = 0 := BitVec.toNat_inj.symm
    rw [hrun.pulses, Nat.zero_add, lowRunFires, if_neg (Nat.not_lt.2 hlen)]
    simp only [hzero]

/-! ## The averager (R150 to R154) -/

/-- A sample that a running averager takes (R151). -/
theorem avgProcess_of_running {s : State} (h : s.avg.done = false) (v : Byte) :
    avgProcess v s =
      { s with avg := { sum := s.avg.sum + v.setWidth 16, count := s.avg.count + 1,
                        done := s.avg.count + 1 == s.cfg.avgN } } := by
  rw [avgProcess, h]
  rfl

/-- Once done, the averager takes no sample (R151). -/
theorem avgProcess_of_done {s : State} (h : s.avg.done = true) (v : Byte) : avgProcess v s = s := by
  rw [avgProcess, h]
  rfl

theorem exec_avgProcess (v : Byte) (s : State) : exec (.avgProcess v) s = .next (respond 0 (avgProcess v s)) := rfl

/-- The quotient fits the response word, as the sum does (R152). -/
theorem avgQuotient_toNat (a : Averager) : (avgQuotient a).toNat = a.sum.toNat / a.count.toNat :=
  Nat.mod_eq_of_lt ((Nat.div_le_self _ _).trans_lt a.sum.isLt)

/-- AVG.VALUE of a finished averager (R152). -/
theorem exec_avgValue_of_done {s : State} (h : s.avg.done = true) :
    exec .avgValue s = .next (respond (avgQuotient s.avg) s) := if_pos h

/-- AVG.VALUE before that (60_exceptions.md R264). -/
theorem exec_avgValue_of_running {s : State} (h : s.avg.done = false) :
    exec .avgValue s = .next (Claims.faulted 2 0x5200 s) := if_neg (Bool.eq_false_iff.1 h)

/-- Settles O41: AVG.PROCESS and AVG.VALUE by the done flag. -/
theorem averagerCommandsComplete : Obligations.AveragerCommandsComplete := by
  intro s v
  refine ⟨rfl, fun hdone => ?_, fun hrunning => ?_, rfl, exec_avgValue_of_running, fun hdone => ?_⟩
  · rw [exec_avgProcess, avgProcess_of_done hdone]
    rfl
  · rw [exec_avgProcess, avgProcess_of_running hrunning]
    rfl
  · exact ⟨_, exec_avgValue_of_done hdone, rfl, avgQuotient_toNat s.avg⟩

/-- The averager and the fault registers after AVG.CLEAR in `s` and the samples `vs`. -/
structure AveragedSamples (vs : List Byte) (s t : State) : Prop where
  cfg : t.cfg = s.cfg
  faults : t.faults = s.faults
  sum : t.avg.sum.toNat = (vs.map BitVec.toNat).sum
  count : t.avg.count.toNat = vs.length
  done : t.avg.done = true ↔ vs.length = s.cfg.avgN.toNat

theorem avgClear_averaged {s : State} (h : 1 ≤ s.cfg.avgN.toNat) : AveragedSamples [] s (respond 0 (avgClear s)) where
  cfg := rfl
  faults := rfl
  sum := rfl
  count := rfl
  done := iff_of_false Bool.false_ne_true (Nat.ne_of_lt h)

/-- One more sample, while there are fewer than P_AVG_N: the count and the sum fit their fields. -/
theorem AveragedSamples.append_one {vs : List Byte} {s t : State} (h : AveragedSamples vs s t)
    (hlt : vs.length < s.cfg.avgN.toNat) (v : Byte) : AveragedSamples (vs ++ [v]) s (respond 0 (avgProcess v t)) := by
  have hrunning : t.avg.done = false := Bool.eq_false_iff.2 fun hdone => hlt.ne (h.done.1 hdone)
  have hn := s.cfg.avgN.isLt
  have hcount : (t.avg.count + 1).toNat = vs.length + 1 := by
    have := h.count
    bv_omega
  have hsum : (t.avg.sum + v.setWidth 16).toNat = (vs.map BitVec.toNat).sum + v.toNat := by
    have := h.sum
    have := sum_bytes_le vs
    have := v.isLt
    rw [BitVec.toNat_add, BitVec.toNat_setWidth]
    omega
  rw [avgProcess_of_running hrunning]
  refine ⟨h.cfg, h.faults, ?_, ?_, ?_⟩
  · simpa using hsum
  · simpa using hcount
  · show (t.avg.count + 1 == t.cfg.avgN) = true ↔ _
    rw [beq_iff_eq, h.cfg, ← BitVec.toNat_inj, hcount, List.length_append, List.length_singleton]

/-- AVG.PROCESS over a list of samples, with the response of each. -/
def averageAll (vs : List Byte) (s : State) : State := vs.foldl (fun s v => respond 0 (avgProcess v s)) s

theorem averageAll_averaged {s : State} (hpos : 1 ≤ s.cfg.avgN.toNat) (vs : List Byte)
    (hlen : vs.length ≤ s.cfg.avgN.toNat) : AveragedSamples vs s (averageAll vs (respond 0 (avgClear s))) := by
  induction vs using List.reverseRecOn with
  | nil => exact avgClear_averaged hpos
  | append_singleton vs v ih =>
    rw [List.length_append, List.length_singleton] at hlen
    rw [averageAll, List.foldl_append]
    exact (ih (by omega)).append_one hlen v

/-- Settles O42: the samples one by one from the clear, then the quotient. -/
theorem averagerDoneAtTheNthSample : Obligations.AveragerDoneAtTheNthSample := by
  intro s vs hpos hlen
  have havg := averageAll_averaged hpos vs hlen
  refine ⟨averageAll vs (respond 0 (avgClear s)), ?_, havg.done, fun hfull => ?_⟩
  · rw [runAll_cons_of_next rfl]
    exact runAll_map_of_next exec_avgProcess vs _
  · refine ⟨_, exec_avgValue_of_done (havg.done.2 hfull), ?_, havg.faults⟩
    rw [respond_resp, avgQuotient_toNat, havg.sum, havg.count, hfull]

/-! ## The sample counter (R160 to R162) -/

/-- A byte as a response word keeps its number (30_encoding.md R84). -/
theorem byteWord_toNat (v : Byte) : (byteWord v).toNat = v.toNat := by
  rw [byteWord, BitVec.toNat_setWidth]
  exact Nat.mod_eq_of_lt (by have := v.isLt; omega)

/-- Settles O43: the count is a byte, and only its addition wraps. -/
theorem sampleCounterCommandsComplete : Obligations.SampleCounterCommandsComplete := by
  intro s v
  exact ⟨rfl, ⟨_, rfl, rfl, BitVec.toNat_add s.cntCount 1⟩, _, rfl, rfl, byteWord_toNat s.cntCount⟩

end Sys2Proof.Machine
end

section
/-!
The tasks (42_tasks.md): the commands on a task, what a sample does to a running one, how long a speed window lasts and
how many ticks the direction task takes.
-/

namespace Sys2Proof.Machine

/-! ## The commands on a task (R170, R172, R173) -/

theorem exec_taskStart_of_operand {task : BitVec 2} {k : TaskId} (h : taskOperand task = some k) (s : State) :
    exec (.taskStart task) s = .next (respond 0 (taskStart k s)) := by
  simp only [exec, execTaskStart, h]

theorem exec_taskStop_of_operand {task : BitVec 2} {k : TaskId} (h : taskOperand task = some k) (s : State) :
    exec (.taskStop task) s = .next (respond 0 (taskStop k s)) := by
  simp only [exec, execTaskStop, h]

theorem exec_taskFinished_of_operand {task : BitVec 2} {k : TaskId} (h : taskOperand task = some k) (s : State) :
    exec (.taskFinished task) s = .next (respond (bitWord (taskFlags k s).finished) s) := by
  simp only [exec, execTaskFinished, h]

/-- Task 0 is the illegal operand of the three commands (30_encoding.md R86 (d)). -/
theorem exec_task_of_illegal {task : BitVec 2} (h : taskOperand task = none) (s : State) :
    exec (.taskStart task) s = .next (raiseFault .illegalCmd (encode (.taskStart task)) s) ∧
    exec (.taskStop task) s = .next (raiseFault .illegalCmd (encode (.taskStop task)) s) ∧
    exec (.taskFinished task) s = .next (raiseFault .illegalCmd (encode (.taskFinished task)) s) := by
  simp only [exec, execTaskStart, execTaskStop, execTaskFinished, h, and_self]

/-- Settles O44: each operand names one task or none, and the start of a task is its rule's assignments. -/
theorem taskStartComplete : Obligations.TaskStartComplete := by
  intro s
  obtain ⟨hillegal, -, -⟩ := exec_task_of_illegal (task := 0) rfl s
  exact ⟨exec_taskStart_of_operand (k := .speed) rfl s, exec_taskStart_of_operand (k := .direction) rfl s,
    exec_taskStart_of_operand (k := .edge) rfl s, hillegal⟩

/-- A stop keeps the finished flag, and clears the sink of a task that can be one (R172). -/
theorem taskStop_speed (s : State) :
    taskStop .speed s =
      { s with
        tasks := { s.tasks with t1 := { s.tasks.t1 with started := false } }
        sc := { s.sc with sink := if s.sc.sink = .speed then .none else s.sc.sink } } :=
  scUnregister_changes_only _ _

theorem taskStop_direction (s : State) :
    taskStop .direction s =
      { s with
        tasks := { s.tasks with t2 := { s.tasks.t2 with started := false } }
        sc := { s.sc with sink := if s.sc.sink = .direction then .none else s.sc.sink } } :=
  scUnregister_changes_only _ _

/-- Settles O45: each operand of the two commands names one task or none. -/
theorem taskStopAndFinishedComplete : Obligations.TaskStopAndFinishedComplete := by
  intro s
  obtain ⟨-, hstop, hfinished⟩ := exec_task_of_illegal (task := 0) rfl s
  refine ⟨?stopSpeed, ?stopDirection, exec_taskStop_of_operand (k := .edge) rfl s, hstop,
    exec_taskFinished_of_operand (k := .speed) rfl s, exec_taskFinished_of_operand (k := .direction) rfl s,
    exec_taskFinished_of_operand (k := .edge) rfl s, hfinished⟩
  case stopSpeed => rw [exec_taskStop_of_operand (k := .speed) rfl s, taskStop_speed]; rfl
  case stopDirection => rw [exec_taskStop_of_operand (k := .direction) rfl s, taskStop_direction]; rfl

/-! ## A sample for a task (R175 to R178) -/

/-- A task takes samples while it is started and not finished. -/
theorem acceptsSample_iff (t : TaskFlags) : acceptsSample t = true ↔ t = ⟨true, false⟩ := by
  obtain ⟨started, finished⟩ := t
  simp [acceptsSample]

section
variable {s : State}

theorem taskService1_of_running (h : s.tasks.t1 = ⟨true, false⟩) (v : Byte) : taskService1 v s = pdProcess v s :=
  if_pos ((acceptsSample_iff _).2 h)

theorem taskService1_of_not_running (h : s.tasks.t1 ≠ ⟨true, false⟩) (v : Byte) : taskService1 v s = s :=
  if_neg (mt (acceptsSample_iff _).1 h)

/-- Task 2 finishes with its averager (R176). -/
theorem taskService2_of_running (h : s.tasks.t2 = ⟨true, false⟩) (v : Byte) :
    taskService2 v s =
      { avgProcess v s with tasks := { s.tasks with t2 := ⟨true, (avgProcess v s).avg.done⟩ } } := by
  rw [taskService2, if_pos ((acceptsSample_iff _).2 h), avgProcess_changes_only v s]
  cases hdone : (avgProcess v s).avg.done with
  | false => simp [hdone, ← h]
  | true => simp [hdone, h]

theorem taskService2_of_not_running (h : s.tasks.t2 ≠ ⟨true, false⟩) (v : Byte) : taskService2 v s = s :=
  if_neg (mt (acceptsSample_iff _).1 h)

theorem taskService3_of_running (h : s.tasks.t3 = ⟨true, false⟩) (v : Byte) :
    taskService3 v s = { s with cntCount := s.cntCount + 1 } :=
  if_pos ((acceptsSample_iff _).2 h)

theorem taskService3_of_not_running (h : s.tasks.t3 ≠ ⟨true, false⟩) (v : Byte) : taskService3 v s = s :=
  if_neg (mt (acceptsSample_iff _).1 h)

end

/-- Settles O46: each service by whether its task runs. -/
theorem taskServiceComplete : Obligations.TaskServiceComplete := by
  intro s v
  have hexec1 : exec (.taskService1 v) s = .next (respond 0 (taskService1 v s)) := rfl
  have hexec2 : exec (.taskService2 v) s = .next (respond 0 (taskService2 v s)) := rfl
  have hexec3 : exec (.taskService3 v) s = .next (respond 0 (taskService3 v s)) := rfl
  rw [hexec1, hexec2, hexec3]
  refine ⟨fun h => ⟨_, exec_pdProcess v s, ?_⟩, fun h => ?_, fun h => ⟨_, exec_avgProcess v s, ?_⟩, fun h => ?_,
    fun h => ?_, fun h => ?_⟩
  · rw [taskService1_of_running h]; rfl
  · rw [taskService1_of_not_running h]; rfl
  · rw [taskService2_of_running h, avgProcess_changes_only]; rfl
  · rw [taskService2_of_not_running h]; rfl
  · rw [taskService3_of_running h]; rfl
  · rw [taskService3_of_not_running h]; rfl

/-- Task 3 counts a sample while it runs (R177), without a case split. -/
theorem taskService3_eq (v : Byte) (s : State) :
    taskService3 v s =
      { s with cntCount := if s.tasks.t3.started && !s.tasks.t3.finished then s.cntCount + 1 else s.cntCount } := by
  unfold taskService3 acceptsSample
  split <;> rfl

/-- Settles O36: the handler gives its synthetic sample to task 3. -/
theorem edgeHandlerCountsForRunningTask : Obligations.EdgeHandlerCountsForRunningTask :=
  fun _ => congrArg _ (taskService3_eq 255 _)

/-! ## The end of a window by time (R174) -/

@[simp] theorem timeStep_cfg (s : State) : (timeStep s).cfg = s.cfg := by
  rw [timeStep_changes_only]

/-- The flags of a time-driven task after a time-base step. -/
theorem timeDrivenFinish_eq (p : Params) (now start : BitVec 32) (t : TaskFlags) :
    timeDrivenFinish p now start t =
      { t with finished := t.finished || (t.started && decide (p.speedPeriodMs.toNat ≤ (now - start).toNat)) } := by
  obtain ⟨started, finished⟩ := t
  unfold timeDrivenFinish windowElapsed elapsed
  generalize decide (p.speedPeriodMs.toNat ≤ (now - start).toNat) = isOver
  cases finished with
  | true => simp
  | false => cases started <;> cases isOver <;> rfl

/-- Of the parts of a time-base step only the first writes the millisecond count and its prescaler. -/
theorem timeStep_msPresc_timeMs (s : State) :
    (timeStep s).time.msPresc = (if s.time.msPresc + 1 = 1000 then 0 else s.time.msPresc + 1) ∧
    (timeStep s).time.timeMs = (if s.time.msPresc + 1 = 1000 then s.time.timeMs + 1 else s.time.timeMs) := by
  unfold timeStep
  rw [advanceBitWriter_changes_only, advanceTick_changes_only, advanceTasks_changes_only, advanceAdc_changes_only,
    advanceClocks_changes_only]
  exact ⟨rfl, rfl⟩

/-- Of the parts of a time-base step only the third writes the tasks, with the new millisecond count. -/
theorem timeStep_tasks (s : State) :
    (timeStep s).tasks =
      { s.tasks with
        t1 := timeDrivenFinish s.cfg (timeStep s).time.timeMs s.tasks.t1StartMs s.tasks.t1
        t3 := timeDrivenFinish s.cfg (timeStep s).time.timeMs s.tasks.t3StartMs s.tasks.t3 } := by
  unfold timeStep
  rw [advanceBitWriter_changes_only, advanceTick_changes_only, advanceTasks, advanceAdc_changes_only,
    advanceClocks_changes_only]

/-- Settles O27. -/
theorem speedWindowFinishesByTime : Obligations.SpeedWindowFinishesByTime := by
  rintro s _ rfl
  simp only [timeStep_tasks, timeDrivenFinish_eq, and_self]

/-! ## A whole speed window (R174) -/

/-- Every thousandth microsecond of the prescaler's phase is a millisecond (10_state.md R22). -/
theorem timeSteps_msPresc_timeMs {s : State} (hpresc : s.time.msPresc.toNat < 1000) (n : Nat) :
    (timeSteps n s).time.msPresc.toNat = (s.time.msPresc.toNat + n) % 1000 ∧
    (timeSteps n s).time.timeMs = s.time.timeMs + BitVec.ofNat 32 ((s.time.msPresc.toNat + n) / 1000) := by
  induction n with
  | zero => simp [timeSteps, Nat.mod_eq_of_lt hpresc, Nat.div_eq_of_lt hpresc]
  | succ n ih =>
    obtain ⟨hphase, hms⟩ := ih
    obtain ⟨hphase', hms'⟩ := timeStep_msPresc_timeMs (timeSteps n s)
    rw [timeSteps_succ, hphase', hms', hms, ← Nat.add_assoc]
    by_cases hwrap : (s.time.msPresc.toNat + n) % 1000 + 1 = 1000
    · have hpresc' : (timeSteps n s).time.msPresc + 1 = 1000 := by bv_omega
      obtain ⟨hdiv, hmod⟩ := succ_div_mod_of_eq hwrap
      rw [if_pos hpresc', if_pos hpresc', hdiv, hmod, BitVec.ofNat_add, BitVec.add_assoc]
      exact ⟨rfl, rfl⟩
    · have hlt := Nat.mod_lt (s.time.msPresc.toNat + n) (by decide : 0 < 1000)
      have hpresc' : (timeSteps n s).time.msPresc + 1 ≠ 1000 := by bv_omega
      obtain ⟨hdiv, hmod⟩ := succ_div_mod_of_lt (m := s.time.msPresc.toNat + n) (d := 1000) (by omega)
      rw [if_neg hpresc', if_neg hpresc', hdiv, hmod, ← hphase]
      exact ⟨by bv_omega, rfl⟩

/-- The timer of a time-driven task (10_state.md R39); task 2 has none. -/
def windowStart (k : TaskId) (s : State) : BitVec 32 :=
  match k with
  | .edge => s.tasks.t3StartMs
  | .speed | .direction => s.tasks.t1StartMs

theorem timeStep_windowStart (k : TaskId) (s : State) : windowStart k (timeStep s) = windowStart k s := by
  cases k <;> simp only [windowStart, timeStep_tasks]

theorem timeStep_taskFlags {k : TaskId} (hk : k ≠ .direction) (s : State) :
    taskFlags k (timeStep s) =
      timeDrivenFinish s.cfg (timeStep s).time.timeMs (windowStart k s) (taskFlags k s) := by
  cases k with
  | direction => exact absurd rfl hk
  | speed | edge => simp only [taskFlags, windowStart, timeStep_tasks]

@[simp] theorem timeSteps_cfg (n : Nat) (s : State) : (timeSteps n s).cfg = s.cfg := by
  induction n with
  | zero => rfl
  | succ n ih => rw [timeSteps_succ, timeStep_cfg, ih]

theorem timeSteps_windowStart (k : TaskId) (n : Nat) (s : State) :
    windowStart k (timeSteps n s) = windowStart k s := by
  induction n with
  | zero => rfl
  | succ n ih => rw [timeSteps_succ, timeStep_windowStart, ih]

/-- A running window `m` microseconds after the beginning of the millisecond in which it started. -/
def windowFlags (p : Params) (m : Nat) : TaskFlags where
  started := true
  finished := decide (1000 * p.speedPeriodMs.toNat ≤ m)

/-- The next microsecond of a window: the milliseconds since its start fit their counter. -/
theorem timeDrivenFinish_windowFlags (p : Params) (start : BitVec 32) {m : Nat}
    (hm : m ≤ 1000 * p.speedPeriodMs.toNat + 999) :
    timeDrivenFinish p (start + BitVec.ofNat 32 ((m + 1) / 1000)) start (windowFlags p m) = windowFlags p (m + 1) := by
  have hperiod := p.speedPeriodMs.isLt
  have helapsed : (start + BitVec.ofNat 32 ((m + 1) / 1000) - start).toNat = (m + 1) / 1000 := by
    rw [add_sub_cancel_left, BitVec.toNat_ofNat, Nat.mod_eq_of_lt (by omega)]
  rw [timeDrivenFinish_eq, helapsed, windowFlags, windowFlags, TaskFlags.mk.injEq, Bool.true_and, ← Bool.decide_or,
    decide_eq_decide]
  exact ⟨rfl, by omega⟩

/-- The flags of a task over its window. -/
theorem timeSteps_taskFlags {k : TaskId} (hk : k ≠ .direction) {s : State} (hrunning : taskFlags k s = ⟨true, false⟩)
    (hstart : windowStart k s = s.time.timeMs) (hpresc : s.time.msPresc.toNat < 1000)
    (hperiod : 1 ≤ s.cfg.speedPeriodMs.toNat) {n : Nat} (hn : n ≤ 1000 * s.cfg.speedPeriodMs.toNat) :
    taskFlags k (timeSteps n s) = windowFlags s.cfg (s.time.msPresc.toNat + n) := by
  induction n with
  | zero =>
    have hopen : ¬ 1000 * s.cfg.speedPeriodMs.toNat ≤ s.time.msPresc.toNat := by omega
    simp [timeSteps, hrunning, windowFlags, hopen]
  | succ n ih =>
    obtain ⟨-, hms⟩ := timeSteps_msPresc_timeMs hpresc (n + 1)
    rw [timeSteps_succ] at hms ⊢
    rw [timeStep_taskFlags hk, hms, timeSteps_cfg, timeSteps_windowStart, hstart, ih (by omega), ← Nat.add_assoc]
    exact timeDrivenFinish_windowFlags s.cfg _ (by omega)

/-- The window that a start opens. -/
theorem taskStart_window {k : TaskId} (hk : k ≠ .direction) {s : State} (hpresc : s.time.msPresc.toNat < 1000)
    (hperiod : 1 ≤ s.cfg.speedPeriodMs.toNat) {n : Nat} (hn : n ≤ 1000 * s.cfg.speedPeriodMs.toNat) :
    taskFlags k (timeSteps n (respond 0 (taskStart k s))) = windowFlags s.cfg (s.time.msPresc.toNat + n) := by
  cases k with
  | direction => exact absurd rfl hk
  | speed => exact timeSteps_taskFlags hk (s := respond 0 (taskStart .speed s)) rfl rfl hpresc hperiod hn
  | edge => exact timeSteps_taskFlags hk (s := respond 0 (taskStart .edge s)) rfl rfl hpresc hperiod hn

theorem windowFlags_finished_iff (p : Params) (m : Nat) :
    (windowFlags p m).finished = true ↔ 1000 * p.speedPeriodMs.toNat ≤ m := decide_eq_true_iff

/-- Settles O28: one argument for the windows of tasks 1 and 3. -/
theorem speedWindowLastsItsPeriod : Obligations.SpeedWindowLastsItsPeriod := by
  intro s n hpresc hperiod hn
  have hspeed := taskStart_window (k := .speed) (by decide) hpresc hperiod hn
  have hedge := taskStart_window (k := .edge) (by decide) hpresc hperiod hn
  refine ⟨⟨_, exec_taskStart_of_operand (k := .speed) rfl s, ?_⟩, ⟨_, exec_taskStart_of_operand (k := .edge) rfl s, ?_⟩⟩
  · rw [← windowFlags_finished_iff, ← hspeed]; rfl
  · rw [← windowFlags_finished_iff, ← hedge]; rfl

/-! ## The direction task from its start (R179) -/

@[simp] theorem tickAt_cfg (e : Option Byte) (s : State) : (Claims.tickAt e s).cfg = s.cfg := by
  cases e <;> rw [Claims.tickAt, tickHandler_changes_only]

@[simp] theorem tickAt_faults (e : Option Byte) (s : State) : (Claims.tickAt e s).faults = s.faults := by
  cases e <;> rw [Claims.tickAt, tickHandler_changes_only]

/-- The samples averaged show in the averager alone. -/
theorem AveragedSamples.congr {vs : List Byte} {s t u : State} (h : AveragedSamples vs s t) (hcfg : u.cfg = t.cfg)
    (hfaults : u.faults = t.faults) (havg : u.avg = t.avg) : AveragedSamples vs s u where
  cfg := hcfg.trans h.cfg
  faults := hfaults.trans h.faults
  sum := by rw [havg, h.sum]
  count := by rw [havg, h.count]
  done := by rw [havg, h.done]

/-- What TASK.START 2 in `s` and then non-stale ticks with the samples `vs` leave: the first P_SETTLE_K samples are
dropped, and the task has finished when its averager is done. -/
structure DirectionRun (vs : List Byte) (s t : State) : Prop where
  averaged : AveragedSamples (vs.drop s.cfg.settleK.toNat) s t
  settle : t.sc.settle.toNat = s.cfg.settleK.toNat - vs.length
  sink : t.sc.sink = .direction
  task : t.tasks.t2 = ⟨true, t.avg.done⟩

theorem taskStart_directionRun {s : State} (hpos : 1 ≤ s.cfg.avgN.toNat) :
    DirectionRun [] s (respond 0 (taskStart .direction s)) where
  averaged := by rw [List.drop_nil]; exact (avgClear_averaged hpos).congr rfl rfl rfl
  settle := rfl
  sink := rfl
  task := rfl

section
variable {vs : List Byte} {s t : State}

/-- A tick within the settle time drops its sample (40_sampleclock.md R111). -/
theorem DirectionRun.settling_tick (h : DirectionRun vs s t) (hlt : vs.length < s.cfg.settleK.toNat) (v : Byte) :
    DirectionRun (vs ++ [v]) s (Claims.tickAt (some v) t) := by
  have hle : (vs ++ [v]).length ≤ s.cfg.settleK.toNat := by simpa using hlt
  have hsettle : t.sc.settle ≠ 0 := fun hzero => by
    have := h.settle
    simp [hzero] at this
    omega
  have hcounted := tickAt_some_counted v hsettle
  have haveraged := h.averaged
  rw [List.drop_eq_nil_of_le hlt.le, ← List.drop_eq_nil_of_le hle] at haveraged
  refine ⟨haveraged.congr (tickAt_cfg _ _) (tickAt_faults _ _) hcounted.avg, ?_, hcounted.sink.trans h.sink, ?_⟩
  · have := h.settle
    have := hcounted.settle
    simp
    omega
  · rw [hcounted.tasks, hcounted.avg, h.task]

/-- A delivering tick with a running direction task registered. -/
theorem tickAt_some_of_direction (hsettle : t.sc.settle = 0) (hsink : t.sc.sink = .direction)
    (htask : t.tasks.t2 = ⟨true, false⟩) (v : Byte) :
    (Claims.tickAt (some v) t).avg = (avgProcess v t).avg ∧
    (Claims.tickAt (some v) t).tasks.t2 = ⟨true, (avgProcess v t).avg.done⟩ ∧
    (Claims.tickAt (some v) t).sc = { t.sc with curCh := t.sc.desCh } := by
  have hservice : taskService2 v (beforeDelivery (conversionCompleted v t)) = _ := taskService2_frame v t _ _ _
  rw [tickAt_some_of_settled v hsettle,
    deliverSample_of_direction (s := beforeDelivery (conversionCompleted v t)) hsink, hservice,
    taskService2_of_running htask]
  exact ⟨rfl, rfl, rfl⟩

/-- A tick after the settle time gives its sample to the task's averager. -/
theorem DirectionRun.delivering_tick (h : DirectionRun vs s t) (hle : s.cfg.settleK.toNat ≤ vs.length)
    (hlt : vs.length < s.cfg.settleK.toNat + s.cfg.avgN.toNat) (v : Byte) :
    DirectionRun (vs ++ [v]) s (Claims.tickAt (some v) t) := by
  have hsettled : t.sc.settle.toNat = 0 := by rw [h.settle]; omega
  have hfew : (vs.drop s.cfg.settleK.toNat).length < s.cfg.avgN.toNat := by rw [List.length_drop]; omega
  have hrunning : t.avg.done = false := Bool.eq_false_iff.2 fun hdone => hfew.ne (h.averaged.done.1 hdone)
  obtain ⟨havg, htask, hsc⟩ := tickAt_some_of_direction (BitVec.eq_of_toNat_eq hsettled) h.sink
    (by rw [h.task, hrunning]) v
  have haveraged := h.averaged.append_one hfew v
  rw [← List.drop_append_of_le_length hle, avgProcess_changes_only] at haveraged
  refine ⟨haveraged.congr (tickAt_cfg _ _) (tickAt_faults _ _) havg, ?_, ?_, ?_⟩
  · rw [hsc, hsettled, List.length_append]; omega
  · rw [hsc]; exact h.sink
  · rw [htask, havg]

end

/-- The run from its start, tick by tick. -/
theorem ticks_directionRun {s : State} (hpos : 1 ≤ s.cfg.avgN.toNat) (vs : List Byte)
    (hlen : vs.length ≤ s.cfg.settleK.toNat + s.cfg.avgN.toNat) :
    DirectionRun vs s (vs.foldl (fun s v => Claims.tickAt (some v) s) (respond 0 (taskStart .direction s))) := by
  induction vs using List.reverseRecOn with
  | nil => exact taskStart_directionRun hpos
  | append_singleton vs v ih =>
    rw [List.length_append, List.length_singleton] at hlen
    have hrun := ih (by omega)
    rw [List.foldl_append]
    obtain hsettling | hdelivering := Nat.lt_or_ge vs.length s.cfg.settleK.toNat
    · exact hrun.settling_tick hsettling v
    · exact hrun.delivering_tick hdelivering (by omega) v

/-- Settles O35: the task has finished when its averager is done, which has taken all samples but the first K. -/
theorem directionTaskTakesSettlePlusSamples : Obligations.DirectionTaskTakesSettlePlusSamples := by
  rintro s vs hlegal _ _ rfl rfl hlen
  obtain ⟨-, -, -, -, -, -, hpos, -⟩ := (legalParams_iff s.cfg).1 hlegal
  refine ⟨_, exec_taskStart_of_operand (k := .direction) rfl s, ?_⟩
  rintro _ rfl
  have hrun := ticks_directionRun hpos vs hlen
  refine ⟨?_, by rw [hrun.averaged.count, List.length_drop], hrun.averaged.sum⟩
  rw [hrun.task, hrun.averaged.done, List.length_drop]
  omega

end Sys2Proof.Machine
end

section
/-!
The reading sequencer (43_instrument.md): the control commands, WI.SERVICE state by state, the transitions they make, and
what the last reading is to the host and in a frame.
-/

namespace Sys2Proof.Machine

/-! ## The control commands (R190, R192, R193, R201) -/

theorem wiAccepts_iff (s : State) : wiAccepts s = true ↔ s.wi.init = true ∧ s.wi.state = .idle := by
  simp [wiAccepts]

theorem wiStartSample_of_accepted {s : State} (h : wiAccepts s = true) (target : CallbackTarget) :
    wiStartSample target s =
      { s with wi := { s.wi with cbValid := true, cbTarget := target, state := .newSample } } := if_pos h

theorem wiStartSample_of_rejected {s : State} (h : wiAccepts s = false) (target : CallbackTarget) :
    wiStartSample target s = s := if_neg (Bool.eq_false_iff.1 h)

/-- WI.START_SAMPLE answers whether it was accepted (R192). -/
theorem exec_wiStartSample {s : State} {accepted : Bool} (h : wiAccepts s = accepted) (b : Bool) :
    exec (.wiStartSample b) s = .next (respond (bitWord accepted) (wiStartSample (callbackOperand b) s)) := by
  subst h
  rfl

theorem taskStop_edge (s : State) :
    taskStop .edge s = { s with tasks := { s.tasks with t3 := { s.tasks.t3 with started := false } } } := rfl

/-- Stopping the two tasks that can be a sink leaves none (42_tasks.md R172). -/
theorem sink_cleared_by_both_stops (k : Sink) :
    (if (if k = .speed then .none else k) = .direction then .none else if k = .speed then .none else k) =
      Sink.none := by
  cases k <;> rfl

/-- An abort at IDLE does nothing (R193). -/
theorem wiAbort_of_idle {s : State} (h : s.wi.state = .idle) : wiAbort s = s := if_pos h

/-- An abort of a reading (R193). -/
theorem wiAbort_of_not_idle {s : State} (h : s.wi.state ≠ .idle) :
    wiAbort s =
      { s with
        tasks := { s.tasks with
          t1 := { s.tasks.t1 with started := false }
          t2 := { s.tasks.t2 with started := false }
          t3 := { s.tasks.t3 with started := false } }
        sc := { s.sc with sink := .none }
        wi := { s.wi with cbValid := false, cbTarget := .emulator, pcap := 0, dcap := 0, state := .idle } } := by
  rw [wiAbort, if_neg h, taskStop_edge, taskStop_direction, taskStop_speed]
  simp only [sink_cleared_by_both_stops]

/-- Settles O47: a start by whether it is accepted, an abort by whether a reading is in flight. -/
theorem instrumentControlCommandsComplete : Obligations.InstrumentControlCommandsComplete := by
  intro s b
  have hexecAbort : exec .wiAbort s = .next (respond 0 (wiAbort s)) := rfl
  refine ⟨rfl, fun hinit hidle => ?accepted, fun hbusy => ?rejected, fun hidle => ?abortIdle, fun hactive => ?abort, rfl⟩
  case accepted =>
    have haccepts := (wiAccepts_iff s).2 ⟨hinit, hidle⟩
    rw [exec_wiStartSample haccepts, wiStartSample_of_accepted haccepts]
    rfl
  case rejected =>
    have hrejects : wiAccepts s = false := by
      rw [Bool.eq_false_iff, ne_eq, wiAccepts_iff, not_and_or, Bool.not_eq_true]
      exact hbusy
    rw [exec_wiStartSample hrejects, wiStartSample_of_rejected hrejects]
    rfl
  case abortIdle =>
    rw [hexecAbort, wiAbort_of_idle hidle]
    rfl
  case abort =>
    rw [hexecAbort, wiAbort_of_not_idle hactive]
    rfl

/-! ## WI.SERVICE, state by state (R194 to R197) -/

theorem exec_wiService (s : State) : exec .wiService s = .next (respond 0 (wiService s)) := rfl

theorem speedTask_of_pulseDetector {p : Params} (h : p.speedSrc = .pulseDetector) : speedTask p = .speed := by
  rw [speedTask, h]

theorem speedTask_of_edgeCounter {p : Params} (h : p.speedSrc = .edgeCounter) : speedTask p = .edge := by
  rw [speedTask, h]

theorem speedCount_of_pulseDetector {s : State} (h : s.cfg.speedSrc = .pulseDetector) :
    speedCount s = s.tasks.t1Pulses := by
  rw [speedCount, h]

theorem speedCount_of_edgeCounter {s : State} (h : s.cfg.speedSrc = .edgeCounter) : speedCount s = s.cntCount := by
  rw [speedCount, h]

section
variable {s : State}

theorem wiService_of_idle (h : s.wi.state = .idle) : wiService s = s := by
  rw [wiService, h]

theorem wiService_of_newSample (h : s.wi.state = .newSample) : wiService s = wiServiceNewSample s := by
  rw [wiService, h]

/-- In SAMPLING_SPEED, before the window is over (R195). -/
theorem wiService_of_speed_waiting (h : s.wi.state = .samplingSpeed)
    (hwait : (taskFlags (speedTask s.cfg) s).finished = false) : wiService s = s := by
  rw [wiService, h]
  exact if_neg (Bool.eq_false_iff.1 hwait)

/-- In SAMPLING_SPEED, after the window (R195). -/
theorem wiService_of_speed_finished (h : s.wi.state = .samplingSpeed)
    (hdone : (taskFlags (speedTask s.cfg) s).finished = true) :
    wiService s =
      { taskStart .direction (taskStop (speedTask s.cfg) s) with
        wi := { s.wi with pcap := speedCount s, state := .samplingDirection } } := by
  rw [wiService, h]
  refine (if_pos hdone).trans ?_
  rw [taskStop_changes_only]
  rfl

/-- In SAMPLING_DIRECTION, before the averager is done (R196). -/
theorem wiService_of_direction_waiting (h : s.wi.state = .samplingDirection) (hwait : s.tasks.t2.finished = false) :
    wiService s = s := by
  rw [wiService, h]
  exact if_neg (Bool.eq_false_iff.1 hwait)

/-- In SAMPLING_DIRECTION, with an average to capture (R196). -/
theorem wiService_of_direction_average (h : s.wi.state = .samplingDirection) (hdone : s.tasks.t2.finished = true)
    (hcount : s.avg.count ≠ 0) :
    wiService s =
      { taskStop .direction s with
        wi := { s.wi with dcap := directionRaw s.cfg (avgQuotient s.avg), state := .sendFrame } } := by
  rw [wiService, h]
  refine (if_pos hdone).trans ((if_neg hcount).trans ?_)
  rw [taskStop_direction]

/-- In SAMPLING_DIRECTION, with an averager that the host has cleared: the captured average is a free value (entry 7). -/
theorem wiService_of_direction_empty (h : s.wi.state = .samplingDirection) (hdone : s.tasks.t2.finished = true)
    (hcount : s.avg.count = 0) :
    wiService s =
      { taskStop .direction s with
        wi := { s.wi with dcap := directionRaw s.cfg (Config.emptyAverage s.free), state := .sendFrame }
        free := s.free + 1 } := by
  rw [wiService, h]
  refine (if_pos hdone).trans ((if_pos hcount).trans ?_)
  rw [taskStop_direction]

/-- In SEND_FRAME, for the emulator (R197, 44_emulator.md R226). -/
theorem wiService_of_send_emulator (h : s.wi.state = .sendFrame) (htarget : s.wi.cbTarget = .emulator) :
    wiService s =
      { s with
        wi := { s.wi with lastPc := s.wi.pcap, lastDirRaw := s.wi.dcap, cbValid := false, state := .idle }
        emu := { s.emu with state := .sending, txd := s.cfg.txdBusy, ind := true } } := by
  simp only [wiService, h, wiServiceSendFrame, htarget]
  rfl

/-- In SEND_FRAME, for the host (R197). -/
theorem wiService_of_send_host (h : s.wi.state = .sendFrame) (htarget : s.wi.cbTarget = .host) :
    wiService s =
      { s with
        wi := { s.wi with lastPc := s.wi.pcap, lastDirRaw := s.wi.dcap, cbValid := false, cbTarget := .emulator,
                          state := .idle, hostDone := true } } := by
  simp only [wiService, h, wiServiceSendFrame, htarget]

end

/-- What a stop leaves of a finished task's flags (42_tasks.md R172). -/
theorem stopped_of_finished {t : TaskFlags} (h : t.finished = true) : { t with started := false } = ⟨false, true⟩ := by
  rw [h]

/-- Settles O48: each state by its rule, the speed task by its source. -/
theorem serviceOpensAndClosesSpeedWindow : Obligations.ServiceOpensAndClosesSpeedWindow := by
  intro s
  rw [exec_wiService]
  refine ⟨fun hstate => ?idle, fun hstate k hk => ?start, fun hstate hsrc hdone => ?detector,
    fun hstate hsrc hdone => ?counter, fun hstate hdetector hcounter => ?wait⟩
  case idle => rw [wiService_of_idle hstate]; rfl
  case start =>
    have hoperand : taskOperand k = some (speedTask s.cfg) := by
      rw [hk, speedTask]
      cases s.cfg.speedSrc <;> rfl
    refine ⟨_, exec_taskStart_of_operand hoperand s, ?_⟩
    rw [wiService_of_newSample hstate]
    rfl
  case detector =>
    have htask := speedTask_of_pulseDetector hsrc
    rw [wiService_of_speed_finished hstate (by rw [htask]; exact hdone), htask, taskStop_speed,
      speedCount_of_pulseDetector hsrc, ← stopped_of_finished hdone]
    rfl
  case counter =>
    have htask := speedTask_of_edgeCounter hsrc
    rw [wiService_of_speed_finished hstate (by rw [htask]; exact hdone), htask, taskStop_edge,
      speedCount_of_edgeCounter hsrc, ← stopped_of_finished hdone]
    rfl
  case wait =>
    have hwait : (taskFlags (speedTask s.cfg) s).finished = false := by
      cases hsrc : s.cfg.speedSrc with
      | pulseDetector => rw [speedTask_of_pulseDetector hsrc]; exact hdetector hsrc
      | edgeCounter => rw [speedTask_of_edgeCounter hsrc]; exact hcounter hsrc
    rw [wiService_of_speed_waiting hstate hwait]
    rfl

/-- The shifted average, in natural numbers (R196). -/
theorem directionRaw_avgQuotient_toNat (p : Params) (a : Averager) :
    (directionRaw p (avgQuotient a)).toNat = a.sum.toNat / a.count.toNat * 2 ^ p.dirShift.toNat % 2 ^ 16 := by
  rw [directionRaw, BitVec.toNat_shiftLeft, avgQuotient_toNat, Nat.shiftLeft_eq]

/-- Settles O49: a finished task 2 by whether its averager still holds samples. -/
theorem serviceCapturesDirection : Obligations.ServiceCapturesDirection := by
  intro s hstate
  rw [exec_wiService]
  refine ⟨fun hwait => ?wait, fun hdone => ⟨_, rfl, ?_⟩⟩
  case wait => rw [wiService_of_direction_waiting hstate hwait]; rfl
  by_cases hcount : s.avg.count = 0
  · rw [wiService_of_direction_empty hstate hdone hcount, taskStop_direction, ← stopped_of_finished hdone]
    exact ⟨rfl, fun hne => absurd hcount hne⟩
  · rw [wiService_of_direction_average hstate hdone hcount, taskStop_direction, ← stopped_of_finished hdone]
    exact ⟨rfl, fun _ => ⟨rfl, directionRaw_avgQuotient_toNat s.cfg s.avg⟩⟩

/-- Settles O50: one rule for each target of the callback. -/
theorem serviceCommitsTheReading : Obligations.ServiceCommitsTheReading := by
  intro s hstate
  rw [exec_wiService]
  refine ⟨fun htarget => ?_, fun htarget => ?_⟩
  · rw [wiService_of_send_emulator hstate htarget]; rfl
  · rw [wiService_of_send_host hstate htarget]; rfl

/-! ## The transitions (R191) -/

@[simp] theorem tickHandler_wi (s : State) : (tickHandler s).wi = s.wi := by
  rw [tickHandler_changes_only]

@[simp] theorem edgeHandler_wi (s : State) : (edgeHandler s).wi = s.wi := by
  rw [edgeHandler_changes_only]

@[simp] theorem avgProcess_wi (v : Byte) (s : State) : (avgProcess v s).wi = s.wi := by
  rw [avgProcess_changes_only]

@[simp] theorem scUnregister_wi (k : Sink) (s : State) : (scUnregister k s).wi = s.wi := by
  rw [scUnregister_changes_only]

@[simp] theorem taskStart_wi (k : TaskId) (s : State) : (taskStart k s).wi = s.wi := by
  rw [taskStart_changes_only]

@[simp] theorem taskStop_wi (k : TaskId) (s : State) : (taskStop k s).wi = s.wi := by
  rw [taskStop_changes_only]

@[simp] theorem taskService1_wi (v : Byte) (s : State) : (taskService1 v s).wi = s.wi := by
  rw [taskService1_changes_only]

@[simp] theorem taskService2_wi (v : Byte) (s : State) : (taskService2 v s).wi = s.wi := by
  rw [taskService2_changes_only]

@[simp] theorem taskService3_wi (v : Byte) (s : State) : (taskService3 v s).wi = s.wi := by
  rw [taskService3_changes_only]

@[simp] theorem emuEnter_wi (e : EmuState) (s : State) : (emuEnter e s).wi = s.wi := by
  rw [emuEnter_changes_only]

@[simp] theorem emuBeginFrame_wi (s : State) : (emuBeginFrame s).wi = s.wi := by
  rw [emuBeginFrame_changes_only]

@[simp] theorem timeStep_wi (s : State) : (timeStep s).wi = s.wi := by
  rw [timeStep_changes_only]

@[simp] theorem envStep_wi (e : EnvStep) (s : State) : (envStep e s).wi = s.wi := by
  rw [envStep_changes_only]

/-- A start leaves the sequencer's state, or is accepted at IDLE (R192). -/
theorem wiStartSample_state_cases (target : CallbackTarget) (s : State) :
    (wiStartSample target s).wi.state = s.wi.state ∨
    (s.wi.init = true ∧ s.wi.state = .idle ∧ (wiStartSample target s).wi.state = .newSample) := by
  cases haccepts : wiAccepts s with
  | false => exact .inl (by rw [wiStartSample_of_rejected haccepts])
  | true =>
    obtain ⟨hinit, hidle⟩ := (wiAccepts_iff s).1 haccepts
    exact .inr ⟨hinit, hidle, by rw [wiStartSample_of_accepted haccepts]⟩

/-- An abort ends at IDLE, wherever it begins (R193). -/
@[simp] theorem wiAbort_state (s : State) : (wiAbort s).wi.state = .idle := by
  by_cases hidle : s.wi.state = .idle
  · rw [wiAbort_of_idle hidle, hidle]
  · rw [wiAbort_of_not_idle hidle]

/-- All that an operation can do to the sequencer's state. -/
inductive SequencerEffect (s t : State) : Instr → Prop
  | kept {i : Instr} (hstate : t.wi.state = s.wi.state) : SequencerEffect s t i
  | accepted {i : Instr} (hcaller : (∃ b, i = .wiStartSample b) ∨ (i = .emuService ∧ s.emu.state = .startSample))
      (hinit : s.wi.init = true) (hfrom : s.wi.state = .idle) (hto : t.wi.state = .newSample) : SequencerEffect s t i
  | opened (hfrom : s.wi.state = .newSample) (hto : t.wi.state = .samplingSpeed) : SequencerEffect s t .wiService
  | counted (hfrom : s.wi.state = .samplingSpeed) (hto : t.wi.state = .samplingDirection)
      (hdone : (taskFlags (speedTask s.cfg) s).finished = true) : SequencerEffect s t .wiService
  | averaged (hfrom : s.wi.state = .samplingDirection) (hto : t.wi.state = .sendFrame)
      (hdone : s.tasks.t2.finished = true) : SequencerEffect s t .wiService
  | committed (hfrom : s.wi.state = .sendFrame) (hto : t.wi.state = .idle) : SequencerEffect s t .wiService
  | aborted {i : Instr}
      (hcaller : i = .wiAbort ∨ (i = .emuService ∧ s.emu.state = .sampling ∧ s.pins.dtr = true))
      (hto : t.wi.state = .idle) : SequencerEffect s t i

/-- WI.SERVICE makes at most the one transition of its state (R194). -/
theorem wiService_sequencerEffect (s : State) : SequencerEffect s (respond 0 (wiService s)) .wiService := by
  cases hstate : s.wi.state with
  | idle => exact .kept (by rw [wiService_of_idle hstate]; rfl)
  | newSample => exact .opened hstate (by rw [wiService_of_newSample hstate]; rfl)
  | samplingSpeed =>
    cases hdone : (taskFlags (speedTask s.cfg) s).finished with
    | false => exact .kept (by rw [wiService_of_speed_waiting hstate hdone]; rfl)
    | true => exact .counted hstate (by rw [wiService_of_speed_finished hstate hdone]; rfl) hdone
  | samplingDirection =>
    cases hdone : s.tasks.t2.finished with
    | false => exact .kept (by rw [wiService_of_direction_waiting hstate hdone]; rfl)
    | true =>
      by_cases hcount : s.avg.count = 0
      · exact .averaged hstate (by rw [wiService_of_direction_empty hstate hdone hcount]; rfl) hdone
      · exact .averaged hstate (by rw [wiService_of_direction_average hstate hdone hcount]; rfl) hdone
  | sendFrame =>
    cases htarget : s.wi.cbTarget with
    | emulator => exact .committed hstate (by rw [wiService_of_send_emulator hstate htarget]; rfl)
    | host => exact .committed hstate (by rw [wiService_of_send_host hstate htarget]; rfl)

/-- EMU.SERVICE calls a start in START_SAMPLE and an abort in SAMPLING (44_emulator.md R223, R224). -/
theorem execEmuService_sequencerEffect {s t : State} (h : execEmuService s = .next t) :
    SequencerEffect s t .emuService := by
  unfold execEmuService at h
  split at h
  case h_1 =>
    cases h
    unfold emuServiceDisabled
    split <;> exact .kept (by simp)
  case h_2 hemu =>
    cases h
    have hwi : (emuServiceStartSample s).wi = (wiStartSample .emulator s).wi := by simp [emuServiceStartSample]
    obtain hkept | ⟨hinit, hidle, hto⟩ := wiStartSample_state_cases .emulator s
    · exact .kept (by rw [hwi, hkept])
    · exact .accepted (.inr ⟨rfl, hemu⟩) hinit hidle (by rw [hwi, hto])
  case h_3 hemu =>
    cases h
    unfold emuServiceSampling
    split
    · next hdtr => exact .aborted (.inr ⟨rfl, hemu, hdtr⟩) (by simp)
    · exact .kept rfl
  case h_4 =>
    split at h
    · cases h
    · cases h
      exact .kept (by simp)

/-- What each operation does to the sequencer's state: the sequencer's own commands and EMU.SERVICE apart, none. -/
theorem exec_sequencerEffect {i : Instr} {s t : State} (h : exec i s = .next t) : SequencerEffect s t i := by
  cases i
  case wiStartSample b =>
    cases h
    obtain hkept | ⟨hinit, hidle, hto⟩ := wiStartSample_state_cases (callbackOperand b) s
    · exact .kept hkept
    · exact .accepted (.inl ⟨b, rfl⟩) hinit hidle hto
  case wiAbort => cases h; exact .aborted (.inl rfl) (wiAbort_state s)
  case wiService => cases h; exact wiService_sequencerEffect s
  case emuService => exact execEmuService_sequencerEffect h
  case scRegister => simp only [exec, execScRegister] at h; split at h <;> cases h <;> exact .kept rfl
  case scUnregister => simp only [exec, execScUnregister] at h; split at h <;> cases h <;> exact .kept (by simp)
  case taskStart => simp only [exec, execTaskStart] at h; split at h <;> cases h <;> exact .kept (by simp)
  case taskStop => simp only [exec, execTaskStop] at h; split at h <;> cases h <;> exact .kept (by simp)
  case taskFinished => simp only [exec, execTaskFinished] at h; split at h <;> cases h <;> exact .kept rfl
  case avgValue => simp only [exec, execAvgValue] at h; split at h <;> cases h <;> exact .kept rfl
  case avgProcess | taskService1 | taskService2 | taskService3 | evTick | evEdge => cases h; exact .kept (by simp)
  all_goals cases h; exact .kept rfl

/-- Settles O51: each effect that is a change is a row of R191's table. -/
theorem sequencerTransitions : Obligations.SequencerTransitions := by
  refine ⟨fun i s t h hchanged => ?_, fun s => ⟨timeStep_wi s, fun e => envStep_wi e s⟩⟩
  cases exec_sequencerEffect h with
  | kept hstate => exact absurd hstate hchanged
  | accepted hcaller hinit hfrom hto => exact .inl ⟨hfrom, hto, hinit, hcaller⟩
  | opened hfrom hto => exact .inr (.inl ⟨rfl, hfrom, hto⟩)
  | counted hfrom hto hdone => exact .inr (.inr (.inl ⟨rfl, hfrom, hto, hdone⟩))
  | averaged hfrom hto hdone => exact .inr (.inr (.inr (.inl ⟨rfl, hfrom, hto, hdone⟩)))
  | committed hfrom hto => exact .inr (.inr (.inr (.inr (.inl ⟨rfl, hfrom, hto⟩))))
  | aborted hcaller hto =>
    exact .inr (.inr (.inr (.inr (.inr ⟨hcaller, fun hidle => hchanged (hto.trans hidle.symm), hto⟩))))

/-! ## The last reading, to the host and in a frame (R199, R200, R202, R203) -/

/-- Adding half of the divisor before the division rounds half up (00_scope.md R15). -/
theorem roundHalfUp_roundsHalfUpTo (p : Nat) {q : Nat} (hq : 0 < q) :
    Claims.roundsHalfUpTo p q (roundHalfUp p q) :=
  ⟨Nat.mul_div_le _ _, Nat.lt_mul_div_succ _ (by omega)⟩

/-- The fastest legal reading fits the response word (R199). -/
theorem roundHalfUp_mph_le (pc : Byte) {period : Nat} (h : 2000 ≤ period) :
    roundHalfUp (pc.toNat * 225000) period ≤ 28688 := by
  have hpc := pc.isLt
  exact Nat.lt_succ_iff.1 (Nat.div_lt_of_lt_mul (by omega))

theorem mphHundredths_toNat (pc : Byte) {period : Word} (h : 2000 ≤ period.toNat) :
    (mphHundredths pc period).toNat = roundHalfUp (pc.toNat * 225000) period.toNat :=
  Nat.mod_eq_of_lt (by have := roundHalfUp_mph_le pc h; omega)

theorem directionOf_toNat (raw : Word) : (directionOf raw).toNat = Claims.direction raw := by
  rw [directionOf, BitVec.toNat_ofNat, Nat.shiftRight_eq_div_pow]
  rfl

theorem exec_wiGetDir (s : State) :
    exec .wiGetDir s = .next (respond ((directionOf s.wi.lastDirRaw).setWidth 16) s) := rfl

/-- A direction as a response word keeps its number (30_encoding.md R84). -/
theorem directionOf_setWidth_toNat (raw : Word) : ((directionOf raw).setWidth 16).toNat = Claims.direction raw := by
  rw [BitVec.toNat_setWidth_of_le (by decide), directionOf_toNat]

/-- Settles O52: the two answers, in natural numbers. -/
theorem gettersAnswerTheLastReading : Obligations.GettersAnswerTheLastReading := by
  intro s hperiod
  refine ⟨⟨_, rfl, rfl, ?_⟩, ⟨_, exec_wiGetDir s, rfl, directionOf_setWidth_toNat _⟩⟩
  rw [respond_resp, mphHundredths_toNat _ hperiod]
  exact ⟨roundHalfUp_roundsHalfUpTo _ (by omega), roundHalfUp_mph_le _ hperiod⟩

/-- A receiver reads the inverse of the levels (44_emulator.md R235). -/
theorem receivedField_eq (f : BitVec 42) (lo n : Nat) :
    Claims.receivedField f lo n = (~~~f.extractLsb' lo n).toNat := by
  induction n with
  | zero => simp [Claims.receivedField]
  | succ n ih =>
    have hcons : ~~~f.extractLsb' lo (n + 1) = BitVec.cons (!f.getLsbD (lo + n)) (~~~f.extractLsb' lo n) := by
      ext i hi
      rw [BitVec.getElem_cons]
      split
      · next h => simp [h]
      · simp
    rw [hcons, BitVec.toNat_cons', ← ih, Claims.receivedField, List.range_succ]
    cases hbit : f.getLsbD (lo + n) <;> simp [Claims.receivedField, hbit, Nat.shiftLeft_eq, Nat.add_comm]

/-- The data of symbols 5 to 40, before their inversion (44_emulator.md R227). -/
def frameData (dir : BitVec 4) (u : BitVec 12) : BitVec 36 := ~~~u ++ ~~~dir ++ frameChecksum dir u ++ u ++ dir

theorem frameLevels_eq (dir : BitVec 4) (u : BitVec 12) :
    frameLevels dir u = 1#1 ++ ~~~frameData dir u ++ 0b00100#5 := rfl

/-- A receiver that reads between the header and the stop bit reads the data. -/
theorem receivedField_frameLevels (dir : BitVec 4) (u : BitVec 12) {lo n : Nat} (h : lo + n ≤ 36) :
    Claims.receivedField (frameLevels dir u) (lo + 5) n = ((frameData dir u).extractLsb' lo n).toNat := by
  have hlevels : (frameLevels dir u).extractLsb' (lo + 5) n = ~~~(frameData dir u).extractLsb' lo n :=
    calc (frameLevels dir u).extractLsb' (lo + 5) n
      _ = (1#1 ++ ~~~frameData dir u).extractLsb' (lo + 5 - 5) n :=
          BitVec.extractLsb'_append_eq_of_le (Nat.le_add_left 5 lo)
      _ = (~~~frameData dir u).extractLsb' lo n := BitVec.extractLsb'_append_eq_of_add_le h
      _ = ~~~(frameData dir u).extractLsb' lo n := by
          ext i hi
          simp [show lo + i < 36 by omega]
  rw [receivedField_eq, hlevels, BitVec.not_not]

/-- The direction that a receiver reads from a frame. -/
theorem receivedField_direction (raw : Word) (u : BitVec 12) :
    Claims.receivedField (frameLevels (directionOf raw) u) 5 4 = Claims.direction raw := by
  have hdata : (frameData (directionOf raw) u).extractLsb' 0 4 = directionOf raw := BitVec.extractLsb'_append_eq_right
  rw [receivedField_frameLevels (lo := 0) _ u (by decide), hdata, directionOf_toNat]

/-- The samples of each direction, with P_DIR_SHIFT = 2 (R202). -/
theorem direction_of_averagedSample {a : Byte} {d : Nat}
    (h : (1 ≤ d ∧ d ≤ 15 ∧ 16 * d ≤ a.toNat + 7 ∧ a.toNat ≤ 16 * d + 8) ∨
      (d = 0 ∧ (a.toNat ≤ 8 ∨ 249 ≤ a.toNat))) :
    Claims.direction (BitVec.ofNat 16 (4 * a.toNat)) = d := by
  have ha := a.isLt
  rw [Claims.direction, BitVec.toNat_ofNat]
  omega

/-- Settles O53: the host and the receiver of a frame read the same direction. -/
theorem directionOfAveragedSample : Obligations.DirectionOfAveragedSample := by
  intro s a d hraw hrange
  have hdirection : Claims.direction s.wi.lastDirRaw = d := hraw ▸ direction_of_averagedSample hrange
  exact ⟨_, _, exec_wiGetDir s, (directionOf_setWidth_toNat _).trans hdirection, rfl,
    (receivedField_direction _ _).trans hdirection⟩

/-- The fastest legal reading fits the frame's field (R203). -/
theorem roundHalfUp_speedUnits_le (pc : Byte) {period : Nat} (h : 2000 ≤ period) :
    roundHalfUp (50292 * pc.toNat) (5 * period) ≤ 1282 := by
  have hpc := pc.isLt
  exact Nat.lt_succ_iff.1 (Nat.div_lt_of_lt_mul (by omega))

theorem speedUnits_toNat (pc : Byte) {period : Word} (h : 2000 ≤ period.toNat) :
    (speedUnits pc period).toNat = roundHalfUp (50292 * pc.toNat) (5 * period.toNat) := by
  have hround : (2 * 50292 * pc.toNat + 5 * period.toNat) / (10 * period.toNat) =
      roundHalfUp (50292 * pc.toNat) (5 * period.toNat) := by
    rw [roundHalfUp, Nat.mul_assoc, ← Nat.mul_assoc 2 5]
  rw [speedUnits, hround, BitVec.toNat_ofNat]
  exact Nat.mod_eq_of_lt (by have := roundHalfUp_speedUnits_le pc h; omega)

/-- Settles O54: the bound makes the mask disappear; the listed values are evaluated. -/
theorem speedUnitsRoundTheExactRational : Obligations.SpeedUnitsRoundTheExactRational := by
  refine ⟨fun pc period hperiod => ?_, by decide⟩
  rw [speedUnits_toNat pc hperiod]
  exact ⟨roundHalfUp_roundsHalfUpTo _ (by omega), roundHalfUp_speedUnits_le pc hperiod⟩

end Sys2Proof.Machine
end

section
/-!
The protocol emulator (44_emulator.md): its operations by the emulator's state, a built frame as a receiver reads it,
the bit writer from symbol 0 to a frame's completion, and the transitions.
-/

namespace Sys2Proof.Machine

/-! ## EMU.SERVICE, state by state (R222 to R225) -/

section
variable {s : State}

theorem exec_emuService_of_disabled_high (h : s.emu.state = .disabled) (hdtr : s.pins.dtr = true) :
    exec .emuService s = .next (respond 0 s) := by
  rw [exec, execEmuService, h]
  simp [emuServiceDisabled, hdtr]

theorem exec_emuService_of_disabled_low (h : s.emu.state = .disabled) (hdtr : s.pins.dtr = false) :
    exec .emuService s = .next (respond 0 (emuEnter .startSample s)) := by
  rw [exec, execEmuService, h]
  simp [emuServiceDisabled, hdtr]

theorem exec_emuService_of_startSample (h : s.emu.state = .startSample) :
    exec .emuService s = .next (respond 0 (emuEnter .sampling (wiStartSample .emulator s))) := by
  rw [exec, execEmuService, h]
  rfl

theorem exec_emuService_of_sampling_low (h : s.emu.state = .sampling) (hdtr : s.pins.dtr = false) :
    exec .emuService s = .next (respond 0 s) := by
  rw [exec, execEmuService, h]
  simp [emuServiceSampling, hdtr]

theorem exec_emuService_of_sampling_high (h : s.emu.state = .sampling) (hdtr : s.pins.dtr = true) :
    exec .emuService s = .next (respond 0 (emuEnter .disabled (wiAbort s))) := by
  rw [exec, execEmuService, h]
  simp [emuServiceSampling, hdtr]

theorem exec_emuService_of_sending_free (h : s.emu.state = .sending) (hfree : s.emu.writing = false) :
    exec .emuService s = .next (emuBeginFrame s) := by
  rw [exec, execEmuService, h]
  simp [hfree]

/-- The case that R225 says cannot arise (entry 12). -/
theorem exec_emuService_of_sending_busy (h : s.emu.state = .sending) (hbusy : s.emu.writing = true) :
    exec .emuService s = .fault .serviceWhileWriting := by
  rw [exec, execEmuService, h]
  simp [hbusy]

end

/-- Settles O55: each state by its rule, DISABLED and SAMPLING by DTR's level, SENDING by the port. -/
theorem emulatorServiceComplete : Obligations.EmulatorServiceComplete := by
  intro s
  refine ⟨exec_emuService_of_disabled_high, exec_emuService_of_disabled_low, fun hstate => ?start,
    exec_emuService_of_sampling_low, fun hstate hdtr => ?abort, fun hstate hfree => ?send,
    exec_emuService_of_sending_busy⟩
  case start =>
    refine ⟨respond _ (wiStartSample .emulator s), rfl, ?_⟩
    rw [exec_emuService_of_startSample hstate, wiStartSample_changes_only]
    rfl
  case abort =>
    refine ⟨_, rfl, wiAbort_state s, ?_⟩
    rw [exec_emuService_of_sampling_high hstate hdtr, wiAbort_changes_only]
    rfl
  case send => exact ⟨_, rfl, exec_emuService_of_sending_free hstate hfree⟩

/-- Settles O56: each arm of `exec` is its rule's assignment. -/
theorem emulatorInternalOperationsComplete : Obligations.EmulatorInternalOperationsComplete :=
  fun _ _ => ⟨rfl, ⟨_, rfl, rfl⟩, rfl⟩

/-! ## A built frame and its receiver (R227, R228, R229, R235) -/

/-- The header is transmitted literally (R227). -/
theorem frameLevels_header (dir : BitVec 4) (u : BitVec 12) {i : Nat} (hi : i < 5) :
    (frameLevels dir u).getLsbD i = (0b00100#5).getLsbD i := by
  rw [frameLevels_eq, BitVec.getLsbD_append, if_pos hi]

/-- The stop bit is high (R227). -/
theorem frameLevels_stop (dir : BitVec 4) (u : BitVec 12) : (frameLevels dir u).getLsbD 41 = true := by
  rw [frameLevels_eq, BitVec.getLsbD_append, if_neg (by decide), BitVec.getLsbD_append, if_neg (by decide)]
  rfl

/-- The checksum nibble, in natural numbers (R229). -/
theorem frameChecksum_toNat (dir : BitVec 4) (u : BitVec 12) :
    (frameChecksum dir u).toNat =
      (dir.toNat + u.toNat % 16 + u.toNat / 16 % 16 + u.toNat / 256 % 16) % 16 := by
  simp only [frameChecksum, BitVec.toNat_add, BitVec.extractLsb'_toNat, Nat.shiftRight_eq_div_pow]
  omega

section
variable (dir : BitVec 4) (u : BitVec 12)

/-- The speed units that a receiver reads from a frame. -/
theorem receivedField_units : Claims.receivedField (frameLevels dir u) 9 12 = u.toNat := by
  have hdata : (frameData dir u).extractLsb' 4 12 = u := by
    rw [frameData, BitVec.extractLsb'_append_eq_of_le (by decide)]
    exact BitVec.extractLsb'_append_eq_right
  rw [receivedField_frameLevels (lo := 4) dir u (by decide), hdata]

/-- The checksum that a receiver reads from a frame (R229). -/
theorem receivedField_checksum :
    Claims.receivedField (frameLevels dir u) 21 4 =
      (dir.toNat + u.toNat % 16 + u.toNat / 16 % 16 + u.toNat / 256 % 16) % 16 := by
  have hdata : (frameData dir u).extractLsb' 16 4 = frameChecksum dir u := by
    rw [frameData, BitVec.extractLsb'_append_eq_of_le (by decide), BitVec.extractLsb'_append_eq_of_le (by decide)]
    exact BitVec.extractLsb'_append_eq_right
  rw [receivedField_frameLevels (lo := 16) dir u (by decide), hdata, frameChecksum_toNat]

/-- The complement of the direction that a receiver reads from a frame. -/
theorem receivedField_directionComplement : Claims.receivedField (frameLevels dir u) 25 4 = 15 - dir.toNat := by
  have hdata : (frameData dir u).extractLsb' 20 4 = ~~~dir := by
    rw [frameData, BitVec.extractLsb'_append_eq_of_le (by decide), BitVec.extractLsb'_append_eq_of_le (by decide),
      BitVec.extractLsb'_append_eq_of_le (by decide)]
    exact BitVec.extractLsb'_append_eq_right
  rw [receivedField_frameLevels (lo := 20) dir u (by decide), hdata, BitVec.toNat_not]

/-- The complement of the speed units that a receiver reads from a frame. -/
theorem receivedField_unitsComplement : Claims.receivedField (frameLevels dir u) 29 12 = 4095 - u.toNat := by
  have hdata : (frameData dir u).extractLsb' 24 12 = ~~~u := by
    rw [frameData, BitVec.extractLsb'_append_eq_of_le (by decide), BitVec.extractLsb'_append_eq_of_le (by decide),
      BitVec.extractLsb'_append_eq_of_le (by decide)]
    exact BitVec.extractLsb'_append_eq_left
  rw [receivedField_frameLevels (lo := 24) dir u (by decide), hdata, BitVec.toNat_not]

end

theorem emuBuildFrame_frame (s : State) :
    (emuBuildFrame s).emu.frame =
      frameLevels (directionOf s.wi.lastDirRaw) (speedUnits s.wi.lastPc s.cfg.speedPeriodMs) := rfl

/-- Settles O57: each field is read where the data is, between the header and the stop bit. -/
theorem receiverRecoversTheReading : Obligations.ReceiverRecoversTheReading := by
  intro s hperiod
  obtain ⟨hunits, -⟩ := speedUnitsRoundTheExactRational.1 s.wi.lastPc s.cfg.speedPeriodMs hperiod
  refine ⟨_, _, rfl, hunits, ?_⟩
  rintro _ _ rfl rfl
  simp (disch := decide) only [emuBuildFrame_frame, frameLevels_header, frameLevels_stop, receivedField_direction,
    receivedField_units, receivedField_checksum, receivedField_directionComplement, receivedField_unitsComplement,
    directionOf_toNat]
  decide

/-! ## The bit writer in a time-base step (R232, R233) -/

@[simp] theorem advanceClocks_timeUs (s : State) : (advanceClocks s).time.timeUs = s.time.timeUs + 1 := by
  rw [advanceClocks_changes_only]

@[simp] theorem advanceAdc_time (s : State) : (advanceAdc s).time = s.time := by
  rw [advanceAdc_changes_only]

@[simp] theorem advanceTasks_time (s : State) : (advanceTasks s).time = s.time := rfl

@[simp] theorem advanceTick_timeUs (s : State) : (advanceTick s).time.timeUs = s.time.timeUs := by
  rw [advanceTick_changes_only]

@[simp] theorem advanceBitWriter_time (s : State) : (advanceBitWriter s).time = s.time := by
  rw [advanceBitWriter_changes_only]

/-- Of the parts of a time-base step only the first writes the microsecond count. -/
theorem timeStep_timeUs (s : State) : (timeStep s).time.timeUs = s.time.timeUs + 1 := by
  simp [timeStep]

/-- The parts between the clocks and the bit writer write nothing that the bit writer reads. -/
theorem timeStep_emu_resp (s : State) :
    (timeStep s).emu = (advanceBitWriter (advanceClocks s)).emu ∧
    (timeStep s).resp = (advanceBitWriter (advanceClocks s)).resp := by
  unfold timeStep
  rw [advanceTick_changes_only, advanceTasks_changes_only, advanceAdc_changes_only, advanceClocks_changes_only]
  unfold advanceBitWriter symbolEnds emuFrameCompletion
  dsimp only
  split
  · split
    · exact ⟨rfl, rfl⟩
    · split <;> exact ⟨rfl, rfl⟩
  · exact ⟨rfl, rfl⟩

/-- The coming time-base step is the last of the slot of the symbol on the wire (R232). -/
structure SymbolEdge (s : State) : Prop where
  writing : s.emu.writing = true
  slot : (s.time.timeUs + 1 - s.emu.t0).toNat = s.cfg.bitUs.toNat * (s.emu.bitIdx.toNat + 1)

/-- The bit writer acts at a symbol's edge. -/
theorem bitWriter_acts_iff (s : State) :
    ((advanceClocks s).emu.writing && symbolEnds (advanceClocks s)) = true ↔ SymbolEdge s := by
  rw [advanceClocks_changes_only, Bool.and_eq_true, symbolEnds, beq_iff_eq]
  exact ⟨fun ⟨hwriting, hslot⟩ => ⟨hwriting, hslot⟩, fun ⟨hwriting, hslot⟩ => ⟨hwriting, hslot⟩⟩

section
variable {s : State}

/-- Within a symbol's slot, and with no frame on the wire, the bit writer does nothing. -/
theorem timeStep_emu_of_no_edge (h : ¬ SymbolEdge s) : (timeStep s).emu = s.emu ∧ (timeStep s).resp = s.resp := by
  rw [← bitWriter_acts_iff] at h
  have hwriter : advanceBitWriter (advanceClocks s) = advanceClocks s := if_neg h
  obtain ⟨hemu, hresp⟩ := timeStep_emu_resp s
  rw [hemu, hresp, hwriter, advanceClocks_changes_only]
  exact ⟨rfl, rfl⟩

/-- At the end of a symbol before the last the next one goes on the wire (R232). -/
theorem timeStep_emu_of_next_symbol (h : SymbolEdge s) (hmore : (s.emu.bitIdx + 1).toNat < 42) :
    (timeStep s).emu =
      { s.emu with bitIdx := s.emu.bitIdx + 1, txd := s.emu.frame.getLsbD (s.emu.bitIdx + 1).toNat } ∧
    (timeStep s).resp = s.resp := by
  obtain ⟨hemu, hresp⟩ := timeStep_emu_resp s
  rw [hemu, hresp, advanceBitWriter, if_pos ((bitWriter_acts_iff s).2 h), advanceClocks_changes_only]
  dsimp only
  rw [if_pos hmore]
  exact ⟨rfl, rfl⟩

/-- At the end of the last symbol the frame is complete, and the emulator follows DTR (R221, R233). -/
theorem timeStep_emu_of_completion (h : SymbolEdge s) (hlast : ¬ (s.emu.bitIdx + 1).toNat < 42) :
    (timeStep s).emu =
      { s.emu with
        writing := false, bitIdx := s.emu.bitIdx + 1, state := if s.pins.dtr then .disabled else .startSample
        txd := s.pins.dtr || s.cfg.txdBusy, ind := !s.pins.dtr } ∧
    (timeStep s).resp = 0 := by
  obtain ⟨hemu, hresp⟩ := timeStep_emu_resp s
  rw [hemu, hresp, advanceBitWriter, if_pos ((bitWriter_acts_iff s).2 h), advanceClocks_changes_only]
  dsimp only
  rw [if_neg hlast, emuFrameCompletion]
  cases s.pins.dtr <;> exact ⟨rfl, rfl⟩

end

/-! ## A frame on the wire (R225, R228, R232, R233) -/

/-- The emulator with symbol `i` of the frame begun in `s` on the wire. -/
def emulatorAtSymbol (s : State) (i : Nat) : Emulator :=
  { (emuBeginFrame s).emu with bitIdx := BitVec.ofNat 6 i, txd := (emuBeginFrame s).emu.frame.getLsbD i }

theorem emuBeginFrame_emu (s : State) : (emuBeginFrame s).emu = emulatorAtSymbol s 0 := rfl

/-- The number of a symbol fits its register. -/
theorem emulatorAtSymbol_bitIdx_toNat (s : State) {i : Nat} (hi : i ≤ 42) : (emulatorAtSymbol s i).bitIdx.toNat = i :=
  Nat.mod_eq_of_lt (by omega)

/-- What EMU.SERVICE in SENDING in `s` and then `n` time-base steps leave, before the frame's end: symbol `n / P_BIT_US`
is on the wire. -/
structure FrameRun (s : State) (n : Nat) (t : State) : Prop where
  cfg : t.cfg = s.cfg
  pins : t.pins = s.pins
  time : t.time.timeUs = s.time.timeUs + BitVec.ofNat 32 n
  emu : t.emu = emulatorAtSymbol s (n / s.cfg.bitUs.toNat)
  resp : t.resp = s.resp

theorem emuBeginFrame_frameRun (s : State) : FrameRun s 0 (emuBeginFrame s) where
  cfg := rfl
  pins := rfl
  time := (BitVec.add_zero _).symm
  emu := by rw [Nat.zero_div, emuBeginFrame_emu]
  resp := rfl

section
variable {s t : State} {n : Nat}

theorem frameSymbol_lt (hn : n < 42 * s.cfg.bitUs.toNat) : n / s.cfg.bitUs.toNat < 42 :=
  Nat.div_lt_of_lt_mul (by rwa [Nat.mul_comm])

/-- The last microsecond of a slot, as a multiple of its length. -/
theorem succ_eq_mul_succ_div_iff (m d : Nat) : m + 1 = d * (m / d + 1) ↔ m % d + 1 = d := by
  have hsplit := Nat.div_add_mod m d
  rw [Nat.mul_succ]
  omega

/-- A symbol's slot ends with its P_BIT_US-th microsecond. -/
theorem FrameRun.symbolEdge_iff (h : FrameRun s n t) (hn : n < 42 * s.cfg.bitUs.toNat) :
    SymbolEdge t ↔ n % s.cfg.bitUs.toNat + 1 = s.cfg.bitUs.toNat := by
  have hidx : t.emu.bitIdx.toNat = n / s.cfg.bitUs.toNat := by
    rw [h.emu, emulatorAtSymbol_bitIdx_toNat s (frameSymbol_lt hn).le]
  have helapsed : (t.time.timeUs + 1 - t.emu.t0).toNat = n + 1 := by
    have hbit := s.cfg.bitUs.isLt
    have hstart : t.emu.t0 = s.time.timeUs := by rw [h.emu]; rfl
    rw [h.time, hstart]
    bv_omega
  have hslot : (t.time.timeUs + 1 - t.emu.t0).toNat = t.cfg.bitUs.toNat * (t.emu.bitIdx.toNat + 1) ↔
      n % s.cfg.bitUs.toNat + 1 = s.cfg.bitUs.toNat := by
    rw [helapsed, hidx, h.cfg, succ_eq_mul_succ_div_iff]
  have hwriting : t.emu.writing = true := by rw [h.emu]; rfl
  exact ⟨fun hedge => hslot.1 hedge.slot, fun hend => ⟨hwriting, hslot.2 hend⟩⟩

/-- The number of the symbol after the one on the wire. -/
theorem FrameRun.nextBitIdx_toNat (h : FrameRun s n t) (hn : n < 42 * s.cfg.bitUs.toNat) :
    (t.emu.bitIdx + 1).toNat = n / s.cfg.bitUs.toNat + 1 := by
  have hlt := frameSymbol_lt hn
  have hidx := emulatorAtSymbol_bitIdx_toNat s hlt.le
  rw [← h.emu] at hidx
  bv_omega

/-- In a frame's next microsecond, but for its last, the bit writer keeps the symbol or puts the next one on. -/
theorem FrameRun.timeStep_emu_resp (h : FrameRun s n t) (hn : n + 1 < 42 * s.cfg.bitUs.toNat) :
    (timeStep t).emu = emulatorAtSymbol s ((n + 1) / s.cfg.bitUs.toNat) ∧ (timeStep t).resp = s.resp := by
  have hn' : n < 42 * s.cfg.bitUs.toNat := by omega
  by_cases hend : n % s.cfg.bitUs.toNat + 1 = s.cfg.bitUs.toNat
  · obtain ⟨hdiv, -⟩ := succ_div_mod_of_eq hend
    have hnext := h.nextBitIdx_toNat hn'
    have hmore := frameSymbol_lt hn
    obtain ⟨hemu, hresp⟩ := timeStep_emu_of_next_symbol ((h.symbolEdge_iff hn').2 hend) (by omega)
    rw [hemu, hresp, hnext, h.emu, h.resp, hdiv, emulatorAtSymbol, emulatorAtSymbol, BitVec.ofNat_add]
    exact ⟨rfl, rfl⟩
  · have hlt : n % s.cfg.bitUs.toNat < s.cfg.bitUs.toNat := Nat.mod_lt n (by omega)
    obtain ⟨hdiv, -⟩ := succ_div_mod_of_lt (m := n) (d := s.cfg.bitUs.toNat) (by omega)
    obtain ⟨hemu, hresp⟩ := timeStep_emu_of_no_edge (mt (h.symbolEdge_iff hn').1 hend)
    rw [hemu, hresp, h.emu, h.resp, hdiv]
    exact ⟨rfl, rfl⟩

theorem FrameRun.next (h : FrameRun s n t) (hn : n + 1 < 42 * s.cfg.bitUs.toNat) :
    FrameRun s (n + 1) (timeStep t) where
  cfg := by rw [timeStep_cfg, h.cfg]
  pins := by rw [timeStep_pins, h.pins]
  time := by rw [timeStep_timeUs, h.time, BitVec.ofNat_add, ← BitVec.add_assoc]; rfl
  emu := (h.timeStep_emu_resp hn).1
  resp := (h.timeStep_emu_resp hn).2

/-- A frame before its end. -/
theorem timeSteps_frameRun (hn : n < 42 * s.cfg.bitUs.toNat) : FrameRun s n (timeSteps n (emuBeginFrame s)) := by
  induction n with
  | zero => exact emuBeginFrame_frameRun s
  | succ n ih =>
    rw [timeSteps_succ]
    exact (ih (by omega)).next hn

/-- A frame's last microsecond: symbol 41 ends, and the frame is complete. -/
theorem FrameRun.completion (h : FrameRun s n t) (hn : n + 1 = 42 * s.cfg.bitUs.toNat) :
    (timeStep t).emu =
      { (emuBeginFrame s).emu with
        writing := false, bitIdx := 42, state := if s.pins.dtr then .disabled else .startSample
        txd := s.pins.dtr || s.cfg.txdBusy, ind := !s.pins.dtr } ∧
    (timeStep t).resp = 0 := by
  have hn' : n < 42 * s.cfg.bitUs.toNat := by omega
  have hlt := frameSymbol_lt hn'
  have hsymbol : n / s.cfg.bitUs.toNat = 41 := by
    refine Nat.le_antisymm (by omega) ((Nat.le_div_iff_mul_le (by omega)).2 (by omega))
  have hend : n % s.cfg.bitUs.toNat + 1 = s.cfg.bitUs.toNat := by
    rw [← succ_eq_mul_succ_div_iff, hsymbol, hn, Nat.mul_comm]
  have hnext := h.nextBitIdx_toNat hn'
  obtain ⟨hemu, hresp⟩ := timeStep_emu_of_completion ((h.symbolEdge_iff hn').2 hend) (by omega)
  rw [hemu, hresp, h.emu, h.pins, h.cfg, hsymbol]
  exact ⟨rfl, rfl⟩

end

/-- Settles O58: the run up to the frame's last microsecond, then the completion. -/
theorem frameSymbolsHoldTheirSlots : Obligations.FrameSymbolsHoldTheirSlots := by
  rintro s s0 n hpos hstate hexec hn _ rfl
  have hfree : s.emu.writing = false := by
    by_contra hbusy
    cases hexec.symm.trans (exec_emuService_of_sending_busy hstate (Bool.eq_true_of_not_eq_false hbusy))
  cases hexec.symm.trans (exec_emuService_of_sending_free hstate hfree)
  refine ⟨fun hlt => ?running, fun hend => ?complete⟩
  case running =>
    have hrun := timeSteps_frameRun hlt
    rw [hrun.emu, hrun.resp]
    exact ⟨rfl, hstate, emulatorAtSymbol_bitIdx_toNat s (frameSymbol_lt hlt).le, rfl, rfl, rfl⟩
  case complete =>
    obtain ⟨m, rfl⟩ := Nat.exists_eq_succ_of_ne_zero (by omega : n ≠ 0)
    obtain ⟨hemu, hresp⟩ := (timeSteps_frameRun (by omega : m < 42 * s.cfg.bitUs.toNat)).completion hend
    rw [timeSteps_succ, hemu, hresp]
    refine ⟨rfl, rfl, rfl, fun hdtr => ?_, fun hdtr => ?_⟩ <;> simp [hdtr]

/-! ## A busy port (R230) -/

/-- The interrupt agent runs one of the two handlers, and counts a free value at most (60_exceptions.md R266). -/
theorem takeInterrupt_cases (s : State) :
    ∃ k, takeInterrupt s = .next (returnFromInterrupt (tickHandler (enterInterrupt { s with free := k }))) ∨
      takeInterrupt s = .next (returnFromInterrupt (edgeHandler (enterInterrupt { s with free := k }))) := by
  unfold takeInterrupt
  split
  · refine ⟨s.free + 1, ?_⟩
    dsimp only
    split
    · exact .inr (runHandler_edge _)
    · exact .inl (runHandler_tick _)
  · refine ⟨s.free, ?_⟩
    split
    · exact .inl (runHandler_tick s)
    · exact .inr (runHandler_edge s)

/-- A handler moves no bit edge, takes no time and makes none of the moves to come. -/
theorem takeInterrupt_frame (s : State) :
    ∃ t, takeInterrupt s = .next t ∧ t.emu = s.emu ∧ t.time = s.time ∧ t.agenda = s.agenda := by
  obtain ⟨k, hnext | hnext⟩ := takeInterrupt_cases s
  · refine ⟨_, hnext, ?_⟩
    rw [tickHandler_changes_only]
    exact ⟨rfl, rfl, rfl⟩
  · refine ⟨_, hnext, ?_⟩
    rw [edgeHandler_changes_only]
    exact ⟨rfl, rfl, rfl⟩

/-- A command waits while a frame is on the wire (entry 5). -/
theorem nextMove_command_busy {s : State} {w : Word} {rest : List Move} (h : s.agenda = .command w :: rest)
    (hbusy : s.emu.writing = true) : nextMove s = .next (timeStep s) := by
  simp [nextMove, h, portBusy, hbusy]

/-- Settles O59: the step is the time base's or the interrupt agent's. -/
theorem busyPortHoldsCommands : Obligations.BusyPortHoldsCommands := by
  intro s hl he hbusy
  refine ⟨fun hi w rest h => ⟨?_, ?_⟩, fun hi => ?_⟩
  · rw [step_eq_nextMove s hl he hi, nextMove_command_busy h hbusy]
  · rw [timeStep_changes_only, h]
  · rw [step_eq s hl he, if_pos hi]
    exact takeInterrupt_frame s

/-! ## The transitions (R220) -/

@[simp] theorem tickHandler_emu (s : State) : (tickHandler s).emu = s.emu := by
  rw [tickHandler_changes_only]

@[simp] theorem edgeHandler_emu (s : State) : (edgeHandler s).emu = s.emu := by
  rw [edgeHandler_changes_only]

@[simp] theorem avgProcess_emu (v : Byte) (s : State) : (avgProcess v s).emu = s.emu := by
  rw [avgProcess_changes_only]

@[simp] theorem scUnregister_emu (k : Sink) (s : State) : (scUnregister k s).emu = s.emu := by
  rw [scUnregister_changes_only]

@[simp] theorem taskStart_emu (k : TaskId) (s : State) : (taskStart k s).emu = s.emu := by
  rw [taskStart_changes_only]

@[simp] theorem taskStop_emu (k : TaskId) (s : State) : (taskStop k s).emu = s.emu := by
  rw [taskStop_changes_only]

@[simp] theorem taskService1_emu (v : Byte) (s : State) : (taskService1 v s).emu = s.emu := by
  rw [taskService1_changes_only]

@[simp] theorem taskService2_emu (v : Byte) (s : State) : (taskService2 v s).emu = s.emu := by
  rw [taskService2_changes_only]

@[simp] theorem taskService3_emu (v : Byte) (s : State) : (taskService3 v s).emu = s.emu := by
  rw [taskService3_changes_only]

@[simp] theorem wiStartSample_emu (target : CallbackTarget) (s : State) : (wiStartSample target s).emu = s.emu := by
  rw [wiStartSample_changes_only]

@[simp] theorem wiAbort_emu (s : State) : (wiAbort s).emu = s.emu := by
  rw [wiAbort_changes_only]

@[simp] theorem envStep_emu (e : EnvStep) (s : State) : (envStep e s).emu = s.emu := by
  rw [envStep_changes_only]

/-- All that an operation can do to the emulator's state. -/
inductive EmulatorEffect (s t : State) : Instr → Prop
  | kept {i : Instr} (hstate : t.emu.state = s.emu.state) : EmulatorEffect s t i
  | activated (hfrom : s.emu.state = .disabled) (hto : t.emu.state = .startSample) (hdtr : s.pins.dtr = false) :
      EmulatorEffect s t .emuService
  | requested (hfrom : s.emu.state = .startSample) (hto : t.emu.state = .sampling) : EmulatorEffect s t .emuService
  | released (hfrom : s.emu.state = .sampling) (hto : t.emu.state = .disabled) (hdtr : s.pins.dtr = true) :
      EmulatorEffect s t .emuService
  | completed {i : Instr}
      (hcaller : i = .emuOnComplete ∨ (i = .wiService ∧ s.wi.state = .sendFrame ∧ s.wi.cbTarget = .emulator))
      (hto : t.emu.state = .sending) : EmulatorEffect s t i

/-- EMU.SERVICE makes at most the one transition of its state. -/
theorem emuService_emulatorEffect {s t : State} (h : exec .emuService s = .next t) :
    EmulatorEffect s t .emuService := by
  cases hstate : s.emu.state with
  | disabled =>
    cases hdtr : s.pins.dtr with
    | true =>
      cases h.symm.trans (exec_emuService_of_disabled_high hstate hdtr)
      exact .kept rfl
    | false =>
      cases h.symm.trans (exec_emuService_of_disabled_low hstate hdtr)
      exact .activated hstate rfl hdtr
  | startSample =>
    cases h.symm.trans (exec_emuService_of_startSample hstate)
    exact .requested hstate rfl
  | sampling =>
    cases hdtr : s.pins.dtr with
    | true =>
      cases h.symm.trans (exec_emuService_of_sampling_high hstate hdtr)
      exact .released hstate rfl hdtr
    | false =>
      cases h.symm.trans (exec_emuService_of_sampling_low hstate hdtr)
      exact .kept rfl
  | sending =>
    cases hwriting : s.emu.writing with
    | true => cases h.symm.trans (exec_emuService_of_sending_busy hstate hwriting)
    | false =>
      cases h.symm.trans (exec_emuService_of_sending_free hstate hwriting)
      exact .kept rfl

/-- WI.SERVICE moves the emulator only when it commits a reading for it (43_instrument.md R197). -/
theorem wiService_emulatorEffect (s : State) : EmulatorEffect s (respond 0 (wiService s)) .wiService := by
  cases hstate : s.wi.state with
  | idle => exact .kept (by rw [wiService_of_idle hstate]; rfl)
  | newSample => exact .kept (by simp [wiService_of_newSample hstate, wiServiceNewSample])
  | samplingSpeed =>
    cases hdone : (taskFlags (speedTask s.cfg) s).finished with
    | false => exact .kept (by rw [wiService_of_speed_waiting hstate hdone]; rfl)
    | true => exact .kept (by simp [wiService_of_speed_finished hstate hdone])
  | samplingDirection =>
    cases hdone : s.tasks.t2.finished with
    | false => exact .kept (by rw [wiService_of_direction_waiting hstate hdone]; rfl)
    | true =>
      by_cases hcount : s.avg.count = 0
      · exact .kept (by simp [wiService_of_direction_empty hstate hdone hcount])
      · exact .kept (by simp [wiService_of_direction_average hstate hdone hcount])
  | sendFrame =>
    cases htarget : s.wi.cbTarget with
    | emulator =>
      exact .completed (.inr ⟨rfl, hstate, htarget⟩) (by rw [wiService_of_send_emulator hstate htarget]; rfl)
    | host => exact .kept (by rw [wiService_of_send_host hstate htarget]; rfl)

/-- What each operation does to the emulator's state: the emulator's own and WI.SERVICE apart, none. -/
theorem exec_emulatorEffect {i : Instr} {s t : State} (h : exec i s = .next t) : EmulatorEffect s t i := by
  cases i
  case emuService => exact emuService_emulatorEffect h
  case emuOnComplete => cases h; exact .completed (.inl rfl) rfl
  case wiService => cases h; exact wiService_emulatorEffect s
  case scRegister => simp only [exec, execScRegister] at h; split at h <;> cases h <;> exact .kept rfl
  case scUnregister => simp only [exec, execScUnregister] at h; split at h <;> cases h <;> exact .kept (by simp)
  case taskStart => simp only [exec, execTaskStart] at h; split at h <;> cases h <;> exact .kept (by simp)
  case taskStop => simp only [exec, execTaskStop] at h; split at h <;> cases h <;> exact .kept (by simp)
  case taskFinished => simp only [exec, execTaskFinished] at h; split at h <;> cases h <;> exact .kept rfl
  case avgValue => simp only [exec, execAvgValue] at h; split at h <;> cases h <;> exact .kept rfl
  case wiGetMph => cases h; exact .kept (by rw [respond_emu])
  case avgProcess | taskService1 | taskService2 | taskService3 | wiStartSample | wiAbort | evTick | evEdge =>
    cases h; exact .kept (by simp)
  all_goals cases h; exact .kept rfl

/-- A time-base step that changes the emulator's state completes a frame (R233). -/
theorem timeStep_state_changed {s : State} (h : (timeStep s).emu.state ≠ s.emu.state) :
    s.emu.writing = true ∧ (timeStep s).emu.writing = false ∧
    (timeStep s).emu.state = (if s.pins.dtr then .disabled else .startSample) := by
  by_cases hedge : SymbolEdge s
  · by_cases hmore : (s.emu.bitIdx + 1).toNat < 42
    · exact absurd (by rw [(timeStep_emu_of_next_symbol hedge hmore).1]) h
    · rw [(timeStep_emu_of_completion hedge hmore).1]
      exact ⟨hedge.writing, rfl, rfl⟩
  · exact absurd (by rw [(timeStep_emu_of_no_edge hedge).1]) h

/-- Settles O60: each effect that is a change is a row of R220's table. -/
theorem emulatorTransitions : Obligations.EmulatorTransitions := by
  refine ⟨fun i s t h hchanged => ?operation, fun s hchanged => ?time, fun s e => envStep_emu e s⟩
  case operation =>
    cases exec_emulatorEffect h with
    | kept hstate => exact absurd hstate hchanged
    | activated hfrom hto hdtr => exact .inl ⟨rfl, hfrom, hto, hdtr⟩
    | requested hfrom hto => exact .inr (.inl ⟨rfl, hfrom, hto⟩)
    | released hfrom hto hdtr => exact .inr (.inr (.inl ⟨rfl, hfrom, hto, hdtr⟩))
    | completed hcaller hto => exact .inr (.inr (.inr ⟨hto, hcaller⟩))
  case time =>
    obtain ⟨hwriting, hfree, hto⟩ := timeStep_state_changed hchanged
    refine ⟨hwriting, hfree, hto, fun hinv => ?_⟩
    obtain ⟨-, honWire, -⟩ := hinv.emulator
    exact (honWire hwriting).1

end Sys2Proof.Machine
end

section
/-!
The system commands (45_system.md): each answers RESP at once, and CSR.READ finds a word at every address, 0 at a
reserved one.
-/

namespace Sys2Proof.Machine

/-- The addresses at which 10_state.md R48 to R52 list no element. -/
def ReservedCsr (a : Byte) : Prop :=
  (0x15 ≤ a.toNat ∧ a.toNat ≤ 0x17) ∨ (0x23 ≤ a.toNat ∧ a.toNat ≤ 0x2F) ∨ 0x3D ≤ a.toNat

/-- A listed address lies in none of the three gaps, so a reserved one falls through the list to 0. -/
theorem csrRead_of_reserved (s : State) {a : Byte} (h : ReservedCsr a) : csrRead s a = 0 := by
  unfold ReservedCsr at h
  unfold csrRead
  split
  case h_46 => rfl
  all_goals omega

/-- Settles O19: each arm of `exec` is its rule's assignment, and the gaps are those of the CSR list. -/
theorem systemCommandsComplete : Obligations.SystemCommandsComplete := by
  intro s
  exact ⟨rfl, rfl, rfl, fun _ => rfl, fun _ => csrRead_of_reserved s⟩

end Sys2Proof.Machine
end

section
/-!
The port and its faults (60_exceptions.md R260 to R264, 30_encoding.md R86): no step stops under the invariant, a step
in a port-ready state is the word's effect, a word is illegal exactly when it does not decode, is internal or has an
illegal operand, and what an operation can do to the faults.
-/

namespace Sys2Proof.Machine

/-! ## The checks under the invariant -/

/-- The invariant excludes the values that no rule writes. -/
theorem Invariant.encodingReachable {s : State} (h : Invariant s) : encodingReachable s = true := by
  obtain ⟨hpresc, htick⟩ := h.clocks
  obtain ⟨hlength, hidx, -, -⟩ := h.ring
  obtain ⟨hbit, -, -⟩ := h.emulator
  simp [Machine.encodingReachable, hpresc, htick, hlength, hidx, hbit]

/-- Settles O6: the invariant passes the step's two checks, and past them no step stops. -/
theorem everyStepFromInvariantContinues : Obligations.EveryStepFromInvariantContinues :=
  fun s h => step_next_of_checks s h.legal h.encodingReachable

/-! ## A word at a port that takes it (R266, 20_memory.md R73) -/

theorem nextMove_command_free {s : State} {w : Word} {rest : List Move} (h : s.agenda = .command w :: rest)
    (hfree : portBusy s = false) : nextMove s = issueCommand w { s with agenda := rest } := by
  simp [nextMove, h, hfree]

/-- In a port-ready state the step is what the port makes of the word. -/
theorem step_eq_issueCommand {s : State} {w : Word} {rest : List Move} (hready : PortReady s)
    (h : s.agenda = .command w :: rest) : step s = issueCommand w { s with agenda := rest } := by
  obtain ⟨hl, he, hi, hfree⟩ := hready
  rw [step_eq_nextMove s hl he hi, nextMove_command_free h hfree]

theorem issueCommand_of_reject {w : Word} {e : DecodeError} (h : decode w = .reject e) (s : State) :
    issueCommand w s = .next (raiseFault .illegalCmd w s) := by
  rw [issueCommand, h]

theorem issueCommand_of_internal {w : Word} {i : Instr} (h : decode w = .ok i) (hi : i.isInternal = true) (s : State) :
    issueCommand w s = .next (raiseFault .illegalCmd w s) := by
  simp only [issueCommand, h, hi, if_true]

theorem issueCommand_of_port {w : Word} {i : Instr} (h : decode w = .ok i) (hi : i.isInternal = false) (s : State) :
    issueCommand w s = exec i s := by
  simp only [issueCommand, h, hi, Bool.false_eq_true, if_false]

/-- A placed word of the block's own width is itself. -/
theorem withFetchWord_encode (s : State) (i : Instr) :
    s.withFetchWord 16 (encode i).toNat = { s with agenda := .command (encode i) :: s.agenda } := by
  have hfits : (encode i).toNat % 2 ^ 16 = (encode i).toNat := Nat.mod_eq_of_lt (encode i).isLt
  rw [State.withFetchWord, placeCommand, hfits, BitVec.ofNat_toNat, BitVec.setWidth_eq]

/-- Settles O13: the port takes the word and runs what it decodes to. -/
theorem stepRunsTheDecodedCommand : Obligations.StepRunsTheDecodedCommand := by
  refine ⟨fun s w rest i hready hagenda hdecode hport => ?_, fun s i hready hport => ?_⟩
  · rw [step_eq_issueCommand hready hagenda, issueCommand_of_port hdecode hport]
  · have hplaced : PortReady { s with agenda := .command (encode i) :: s.agenda } := hready
    rw [withFetchWord_encode, step_eq_issueCommand hplaced rfl, issueCommand_of_port (decode_encode i) hport]

/-! ## The illegal words (30_encoding.md R86) -/

theorem unitOpField_and (w mask : Word) : unitOpField (w &&& mask) = unitOpField w &&& unitOpField mask :=
  BitVec.extractLsb'_and

/-- A word fails the test of a mask and a match when its UNIT and OP fail it (30_encoding.md R81). -/
theorem commandWord_and_beq_false {u v : Byte} {mask pattern : Word}
    (h : u &&& unitOpField mask ≠ unitOpField pattern) : (commandWord u v &&& mask == pattern) = false := by
  rw [beq_eq_false_iff_ne]
  rintro rfl
  rw [unitOpField_and, unitOpField_commandWord] at h
  exact h rfl

theorem commandWord_beq_false {u v : Byte} {pattern : Word} (h : u ≠ unitOpField pattern) :
    (commandWord u v == pattern) = false := by
  rw [beq_eq_false_iff_ne]
  rintro rfl
  exact h (unitOpField_commandWord u v).symm

/-- A word holds a row exactly when it decodes (R87). -/
theorem any_row_holds_iff {w : Word} : (opcodeRows.any fun r => r.holds w) = true ↔ ∃ i, decode w = .ok i := by
  rw [List.any_eq_true]
  exact (decoderFollowsTheOpcodeRows.1 w).symm

/-- The cases (d) and (e) of R86, read from the rows, are those of the operation. -/
theorem illegalOnPort_encode (i : Instr) : illegalOnPort (encode i) = (i.isInternal || !i.wellFormed) := by
  rw [illegalOnPort, any_row_holds_iff.2 ⟨i, decode_encode i⟩]
  cases i with
  | maPush v | pdProcess v | avgProcess v | cntProcess v | taskService1 v | taskService2 v | taskService3 v
  | csrRead v =>
    simp (disch := decide) only [encode, commandWord_and_beq_false, commandWord_beq_false]
    rfl
  | scRegister sink ch => revert sink ch; decide
  | scUnregister x | taskStart x | taskStop x | taskFinished x => revert x; decide
  | adcSelect ch => revert ch; decide
  | wiStartSample b | emuWriteBit b => revert b; decide
  | _ => rfl

theorem registerSinkOperand_eq_none_iff :
    ∀ sink ch, registerSinkOperand sink = none ↔ (Instr.scRegister sink ch).wellFormed = false := by decide

theorem unregisterSinkOperand_eq_none_iff :
    ∀ sink, unregisterSinkOperand sink = none ↔ (Instr.scUnregister sink).wellFormed = false := by decide

theorem taskOperand_eq_none_iff :
    ∀ task, taskOperand task = none ↔ (Instr.taskStart task).wellFormed = false := by decide

/-- An operation with an operand that R86 (d) excludes records its own word and does nothing else. -/
theorem exec_of_not_wellFormed {i : Instr} (h : i.wellFormed = false) (s : State) :
    exec i s = .next (raiseFault .illegalCmd (encode i) s) := by
  cases i with
  | scRegister sink ch => exact exec_scRegister_of_illegal ((registerSinkOperand_eq_none_iff sink ch).2 h) ch s
  | scUnregister sink => exact exec_scUnregister_of_illegal ((unregisterSinkOperand_eq_none_iff sink).2 h) s
  | taskStart task =>
    obtain ⟨hstart, -, -⟩ := exec_task_of_illegal ((taskOperand_eq_none_iff task).2 h) s
    exact hstart
  | taskStop task =>
    obtain ⟨-, hstop, -⟩ := exec_task_of_illegal ((taskOperand_eq_none_iff task).2 h) s
    exact hstop
  | taskFinished task =>
    obtain ⟨-, -, hfinished⟩ := exec_task_of_illegal ((taskOperand_eq_none_iff task).2 h) s
    exact hfinished
  | _ => cases h

/-- An illegal word has one effect: (a), (b) and (c) do not decode, the operation finds (d), the port (e). -/
theorem issueCommand_of_illegal {w : Word} (h : illegalOnPort w = true) (s : State) :
    issueCommand w s = .next (raiseFault .illegalCmd w s) := by
  cases hdecode : decode w with
  | reject e => exact issueCommand_of_reject hdecode s
  | ok i =>
    obtain rfl := encode_of_decode hdecode
    cases hinternal : i.isInternal with
    | true => exact issueCommand_of_internal hdecode hinternal s
    | false =>
      have hoperand : i.wellFormed = false := by simpa [illegalOnPort_encode, hinternal] using h
      rw [issueCommand_of_port hdecode hinternal, exec_of_not_wellFormed hoperand]

/-- Settles O14: the state an illegal word leaves is the one `raiseFault` gives. -/
theorem illegalWordOnlyRecordsItsFault : Obligations.IllegalWordOnlyRecordsItsFault := by
  intro s w rest hready hagenda hillegal
  rw [step_eq_issueCommand hready hagenda, issueCommand_of_illegal hillegal]
  rfl

/-! ## What an operation does to the faults (R261, R264) -/

@[simp] theorem scUnregister_faults (k : Sink) (s : State) : (scUnregister k s).faults = s.faults := by
  rw [scUnregister_changes_only]

@[simp] theorem avgProcess_faults (v : Byte) (s : State) : (avgProcess v s).faults = s.faults := by
  rw [avgProcess_changes_only]

@[simp] theorem taskStart_faults (k : TaskId) (s : State) : (taskStart k s).faults = s.faults := by
  rw [taskStart_changes_only]

@[simp] theorem taskStop_faults (k : TaskId) (s : State) : (taskStop k s).faults = s.faults := by
  rw [taskStop_changes_only]

@[simp] theorem taskService1_faults (v : Byte) (s : State) : (taskService1 v s).faults = s.faults := by
  rw [taskService1_changes_only]

@[simp] theorem taskService2_faults (v : Byte) (s : State) : (taskService2 v s).faults = s.faults := by
  rw [taskService2_changes_only]

@[simp] theorem taskService3_faults (v : Byte) (s : State) : (taskService3 v s).faults = s.faults := by
  rw [taskService3_changes_only]

@[simp] theorem tickHandler_faults (s : State) : (tickHandler s).faults = s.faults := by
  rw [tickHandler_changes_only]

@[simp] theorem edgeHandler_faults (s : State) : (edgeHandler s).faults = s.faults := by
  rw [edgeHandler_changes_only]

@[simp] theorem emuEnter_faults (e : EmuState) (s : State) : (emuEnter e s).faults = s.faults := by
  rw [emuEnter_changes_only]

@[simp] theorem wiStartSample_faults (target : CallbackTarget) (s : State) :
    (wiStartSample target s).faults = s.faults := by
  rw [wiStartSample_changes_only]

@[simp] theorem wiAbort_faults (s : State) : (wiAbort s).faults = s.faults := by
  rw [wiAbort_changes_only]

@[simp] theorem wiService_faults (s : State) : (wiService s).faults = s.faults := by
  rw [wiService_changes_only]

/-- EMU.SERVICE records no fault, in any state of the emulator. -/
theorem execEmuService_faults {s t : State} (h : execEmuService s = .next t) : t.faults = s.faults := by
  unfold execEmuService at h
  split at h
  case h_1 => cases h; unfold emuServiceDisabled; split <;> simp
  case h_2 => cases h; simp [emuServiceStartSample]
  case h_3 => cases h; unfold emuServiceSampling; split <;> simp
  case h_4 => split at h <;> cases h; rfl

/-- All that an operation can do to the faults. -/
inductive FaultEffect (s t : State) : Instr → Prop
  | kept {i : Instr} (hfaults : t.faults = s.faults) : FaultEffect s t i
  /-- an operand that 30_encoding.md R86 (d) excludes -/
  | illegalOperand {i : Instr} (hoperand : i.wellFormed = false) (ht : t = raiseFault .illegalCmd (encode i) s) :
      FaultEffect s t i
  /-- AVG.VALUE before the averager is done -/
  | notDone (hdone : s.avg.done = false) (ht : t = raiseFault .avgNotDone (encode .avgValue) s) :
      FaultEffect s t .avgValue

/-- A legal operand of an operation that has an illegal one. -/
theorem operand_of_wellFormed {α : Type} {o : Option α} {b : Bool} (h : o = none ↔ b = false) (hb : b = true) :
    ∃ a, o = some a :=
  Option.ne_none_iff_exists'.1 fun hnone => by simp [h.1 hnone] at hb

/-- AVG.VALUE, by whether the averager is done. -/
theorem avgValue_faultEffect {s t : State} (h : exec .avgValue s = .next t) : FaultEffect s t .avgValue := by
  rw [exec, execAvgValue] at h
  split at h
  · cases h; exact .kept rfl
  · next hdone => cases h; exact .notDone (Bool.eq_false_iff.2 hdone) rfl

/-- What each operation does to the faults: with a legal operand, only AVG.VALUE anything. -/
theorem exec_faultEffect {i : Instr} {s t : State} (h : exec i s = .next t) : FaultEffect s t i := by
  cases hoperand : i.wellFormed with
  | false =>
    cases h.symm.trans (exec_of_not_wellFormed hoperand s)
    exact .illegalOperand hoperand rfl
  | true =>
    cases i
    case avgValue => exact avgValue_faultEffect h
    case emuService => exact .kept (execEmuService_faults h)
    case scRegister sink ch =>
      obtain ⟨k, hk⟩ := operand_of_wellFormed (registerSinkOperand_eq_none_iff sink ch) hoperand
      cases h.symm.trans (exec_scRegister_of_operand hk ch s)
      exact .kept rfl
    case scUnregister sink =>
      obtain ⟨k, hk⟩ := operand_of_wellFormed (unregisterSinkOperand_eq_none_iff sink) hoperand
      cases h.symm.trans (exec_scUnregister_of_operand hk s)
      exact .kept rfl
    case taskStart task =>
      obtain ⟨k, hk⟩ := operand_of_wellFormed (taskOperand_eq_none_iff task) hoperand
      cases h.symm.trans (exec_taskStart_of_operand hk s)
      exact .kept (by simp)
    case taskStop task =>
      obtain ⟨k, hk⟩ := operand_of_wellFormed (taskOperand_eq_none_iff task) hoperand
      cases h.symm.trans (exec_taskStop_of_operand hk s)
      exact .kept (by simp)
    case taskFinished task =>
      obtain ⟨k, hk⟩ := operand_of_wellFormed (taskOperand_eq_none_iff task) hoperand
      cases h.symm.trans (exec_taskFinished_of_operand hk s)
      exact .kept rfl
    case avgProcess | taskService1 | taskService2 | taskService3 | wiStartSample | wiAbort | wiService | evTick
      | evEdge =>
      cases h; exact .kept (by simp)
    all_goals cases h; exact .kept rfl

/-- A legal word is the word of an operation of the port with a legal operand. -/
theorem legalWord_decodes {w : Word} (h : illegalOnPort w = false) :
    ∃ i, decode w = .ok i ∧ i.isInternal = false ∧ i.wellFormed = true := by
  cases hdecode : decode w with
  | reject e =>
    have hnorow : (opcodeRows.any fun r => r.holds w) = false :=
      Bool.eq_false_iff.2 fun hrow => by simpa [hdecode] using any_row_holds_iff.1 hrow
    simp [illegalOnPort, hnorow] at h
  | ok i =>
    rw [← encode_of_decode hdecode, illegalOnPort_encode] at h
    exact ⟨i, rfl, by simpa using h⟩

/-- Settles O15: a legal word's operation has a legal operand, which leaves the fault of AVG.VALUE. -/
theorem legalWordNeverRaisesIllegalCmd : Obligations.LegalWordNeverRaisesIllegalCmd := by
  intro s t w rest hready hagenda hlegal hstep
  obtain ⟨i, hdecode, hport, hoperand⟩ := legalWord_decodes hlegal
  rw [step_eq_issueCommand hready hagenda, issueCommand_of_port hdecode hport] at hstep
  have hw := encode_of_decode hdecode
  cases exec_faultEffect hstep with
  | kept hfaults => exact .inl hfaults
  | illegalOperand hnot => simp [hoperand] at hnot
  | notDone hdone ht => exact .inr ⟨hw.symm, hdone, by rw [ht, hw]; rfl⟩

end Sys2Proof.Machine
end

section
/-!
The interrupts (60_exceptions.md R266 to R268): the two handlers write apart from each other, so their order does not
matter, and an eligible interrupt is taken by the handler of a pending request.
-/

namespace Sys2Proof.Machine

/-! ## What EV.TICK has no part in -/

/-- `s` with new values in the fields that EV.TICK neither reads nor writes and that EV.EDGE, or the choice between the
two handlers, does write: the edge request, the sample count and the counter of the free values. -/
def withEdgeSide (edge : Bool) (count : Byte) (k : Nat) (s : State) : State :=
  { s with irq := { s.irq with edgePending := edge }, cntCount := count, free := k }

section
variable (edge : Bool) (count : Byte) (k : Nat) (v : Byte) (s : State)

theorem taskService1_withEdgeSide :
    taskService1 v (withEdgeSide edge count k s) = withEdgeSide edge count k (taskService1 v s) := by
  by_cases hrun : s.tasks.t1 = ⟨true, false⟩
  · rw [taskService1_of_running hrun, taskService1_of_running (s := withEdgeSide edge count k s) hrun]; rfl
  · rw [taskService1_of_not_running hrun, taskService1_of_not_running (s := withEdgeSide edge count k s) hrun]

theorem avgProcess_withEdgeSide :
    avgProcess v (withEdgeSide edge count k s) = withEdgeSide edge count k (avgProcess v s) := by
  cases hdone : s.avg.done with
  | true => rw [avgProcess_of_done hdone, avgProcess_of_done (s := withEdgeSide edge count k s) hdone]
  | false => rw [avgProcess_of_running hdone, avgProcess_of_running (s := withEdgeSide edge count k s) hdone]; rfl

theorem taskService2_withEdgeSide :
    taskService2 v (withEdgeSide edge count k s) = withEdgeSide edge count k (taskService2 v s) := by
  by_cases hrun : s.tasks.t2 = ⟨true, false⟩
  · rw [taskService2_of_running hrun, taskService2_of_running (s := withEdgeSide edge count k s) hrun,
      avgProcess_withEdgeSide]
    rfl
  · rw [taskService2_of_not_running hrun, taskService2_of_not_running (s := withEdgeSide edge count k s) hrun]

theorem deliverSample_withEdgeSide :
    deliverSample v (withEdgeSide edge count k s) = withEdgeSide edge count k (deliverSample v s) := by
  cases hsink : s.sc.sink with
  | none => rw [deliverSample_of_none hsink, deliverSample_of_none (s := withEdgeSide edge count k s) hsink]
  | speed =>
    rw [deliverSample_of_speed hsink, deliverSample_of_speed (s := withEdgeSide edge count k s) hsink,
      taskService1_withEdgeSide]
  | direction =>
    rw [deliverSample_of_direction hsink, deliverSample_of_direction (s := withEdgeSide edge count k s) hsink,
      taskService2_withEdgeSide]

/-- EV.TICK has no part in those fields, on each of its three paths (40_sampleclock.md R110). -/
theorem tickHandler_withEdgeSide :
    tickHandler (withEdgeSide edge count k s) = withEdgeSide edge count k (tickHandler s) := by
  cases hbusy : s.adc.busy with
  | true => rw [tickHandler_of_busy hbusy, tickHandler_of_busy (s := withEdgeSide edge count k s) hbusy]; rfl
  | false =>
    by_cases hsettle : s.sc.settle = 0
    · rw [tickHandler_of_delivering hbusy hsettle,
        tickHandler_of_delivering (s := withEdgeSide edge count k s) hbusy hsettle, ← deliverSample_withEdgeSide]
      rfl
    · rw [tickHandler_of_settling hbusy hsettle rfl,
        tickHandler_of_settling (s := withEdgeSide edge count k s) hbusy hsettle rfl]
      rfl

end

/-! ## Both orders (R266) -/

/-- The sample count after EV.EDGE: task 3 counts while it runs (42_tasks.md R177, R178). -/
def countAfterEdge (s : State) : Byte :=
  if s.tasks.t3.started && !s.tasks.t3.finished then s.cntCount + 1 else s.cntCount

theorem edgeHandler_eq (s : State) : edgeHandler s = withEdgeSide false (countAfterEdge s) s.free s :=
  taskService3_eq 255 _

/-- EV.TICK writes nothing that EV.EDGE reads. -/
theorem countAfterEdge_tickHandler (s : State) : countAfterEdge (tickHandler s) = countAfterEdge s := by
  rw [tickHandler_changes_only]
  rfl

theorem tickHandler_free (s : State) : (tickHandler s).free = s.free := by
  rw [tickHandler_changes_only]

theorem edgeHandler_tickHandler (s : State) : edgeHandler (tickHandler s) = tickHandler (edgeHandler s) := by
  rw [edgeHandler_eq, edgeHandler_eq s, tickHandler_withEdgeSide, countAfterEdge_tickHandler, tickHandler_free]

/-- Settles O17: the two handlers commute, and each clears its own request. -/
theorem handlerOrderDoesNotMatter : Obligations.HandlerOrderDoesNotMatter := by
  intro s
  have htickFirst : Claims.runAll [.evTick, .evEdge] s = .next (edgeHandler (tickHandler s)) := rfl
  have hedgeFirst : Claims.runAll [.evEdge, .evTick] s = .next (tickHandler (edgeHandler s)) := rfl
  refine ⟨by rw [htickFirst, hedgeFirst, edgeHandler_tickHandler], _, htickFirst, ?_, ?_⟩
  · rw [edgeHandler_tickHandler, tickHandler_changes_only]
  · rw [edgeHandler_changes_only]

/-! ## An eligible interrupt is taken (R266 to R268) -/

theorem interruptEligible_iff (s : State) :
    interruptEligible s = true ↔
      s.irq.ie = true ∧ s.irq.inIsr = false ∧ (s.irq.tickPending = true ∨ s.irq.edgePending = true) := by
  simp [interruptEligible, and_assoc]

/-- Of the pending requests one is taken; with both pending the counter of the free values is used, and either may be
the one (entry 6). -/
theorem takeInterrupt_of_eligible {s : State} (h : interruptEligible s = true) :
    ∃ k,
      (s.irq.tickPending = true ∧ takeInterrupt s = runHandler .evTick { s with free := k }) ∨
      (s.irq.edgePending = true ∧ takeInterrupt s = runHandler .evEdge { s with free := k }) := by
  obtain ⟨-, -, hpending⟩ := (interruptEligible_iff s).1 h
  cases htick : s.irq.tickPending with
  | false =>
    have hedge : s.irq.edgePending = true := by simpa [htick] using hpending
    exact ⟨s.free, .inr ⟨hedge, by simp [takeInterrupt, htick]⟩⟩
  | true =>
    cases hedge : s.irq.edgePending with
    | false => exact ⟨s.free, .inl ⟨rfl, by simp [takeInterrupt, htick, hedge]⟩⟩
    | true =>
      cases hfirst : Config.edgeFirst s.free with
      | true => exact ⟨s.free + 1, .inr ⟨rfl, by simp [takeInterrupt, htick, hedge, hfirst]⟩⟩
      | false => exact ⟨s.free + 1, .inl ⟨rfl, by simp [takeInterrupt, htick, hedge, hfirst]⟩⟩

/-- The handlers do not read the counter of the free values. -/
theorem tickHandler_withFree (k : Nat) (s : State) :
    tickHandler { s with free := k } = { tickHandler s with free := k } := by
  refine (tickHandler_withEdgeSide s.irq.edgePending s.cntCount k s).trans ?_
  rw [tickHandler_changes_only s]
  rfl

theorem edgeHandler_withFree (k : Nat) (s : State) :
    edgeHandler { s with free := k } = { edgeHandler s with free := k } := by
  rw [edgeHandler_eq, edgeHandler_eq s]
  rfl

/-- What every handler keeps between entry and return (R267, R268). -/
structure HandlerKeeps (s t : State) : Prop where
  inIsr : t.irq.inIsr = false
  ie : t.irq.ie = s.irq.ie
  time : t.time = s.time
  agenda : t.agenda = s.agenda
  resp : t.resp = s.resp
  faults : t.faults = s.faults

/-- EV.TICK between entry and return, with any value of the counter of the free values. -/
theorem runHandler_tick_withFree (k : Nat) (s : State) :
    ∃ t, runHandler .evTick { s with free := k } = .next t ∧ HandlerKeeps s t ∧
      t.irq.tickPending = false ∧ t.irq.edgePending = s.irq.edgePending ∧
      t = { returnFromInterrupt (tickHandler (enterInterrupt s)) with free := k } := by
  have hfree : tickHandler (enterInterrupt { s with free := k }) = { tickHandler (enterInterrupt s) with free := k } :=
    tickHandler_withFree k (enterInterrupt s)
  refine ⟨_, runHandler_tick _, ⟨?_, ?_, ?_, ?_, ?_, ?_⟩, ?_, ?_, by rw [hfree]; rfl⟩
  all_goals rw [tickHandler_changes_only]; rfl

/-- EV.EDGE between entry and return, with any value of the counter of the free values. -/
theorem runHandler_edge_withFree (k : Nat) (s : State) :
    ∃ t, runHandler .evEdge { s with free := k } = .next t ∧ HandlerKeeps s t ∧
      t.irq.edgePending = false ∧ t.irq.tickPending = s.irq.tickPending ∧
      t = { returnFromInterrupt (edgeHandler (enterInterrupt s)) with free := k } := by
  have hfree : edgeHandler (enterInterrupt { s with free := k }) = { edgeHandler (enterInterrupt s) with free := k } :=
    edgeHandler_withFree k (enterInterrupt s)
  refine ⟨_, runHandler_edge _, ⟨?_, ?_, ?_, ?_, ?_, ?_⟩, ?_, ?_, by rw [hfree]; rfl⟩
  all_goals rw [edgeHandler_changes_only]; rfl

/-- Settles O16: the step is the handler of one of the pending requests. -/
theorem eligibleInterruptIsTakenFirst : Obligations.EligibleInterruptIsTakenFirst := by
  intro s hl he hi
  obtain ⟨hie, -, -⟩ := (interruptEligible_iff s).1 hi
  rw [step_eq s hl he, if_pos hi]
  obtain ⟨k, ⟨hpending, htake⟩ | ⟨hpending, htake⟩⟩ := takeInterrupt_of_eligible hi
  · obtain ⟨t, hrun, hkeeps, hcleared, hother, ht⟩ := runHandler_tick_withFree k s
    exact ⟨t, htake.trans hrun, hkeeps.inIsr, hkeeps.ie.trans hie, hkeeps.time, hkeeps.agenda, hkeeps.resp,
      hkeeps.faults, .inl ⟨hpending, hcleared, hother, _, rfl, by rw [ht]; rfl⟩⟩
  · obtain ⟨t, hrun, hkeeps, hcleared, hother, ht⟩ := runHandler_edge_withFree k s
    exact ⟨t, htake.trans hrun, hkeeps.inIsr, hkeeps.ie.trans hie, hkeeps.time, hkeeps.agenda, hkeeps.resp,
      hkeeps.faults, .inr ⟨hpending, hcleared, hother, _, rfl, by rw [ht]; rfl⟩⟩

end Sys2Proof.Machine
end

section
/-!
Reset (70_reset_and_hazards.md R290, R291): what the reset state holds, that it meets the invariant, and the first tick
period after it.
-/

namespace Sys2Proof.Machine

/-! ## The reset state (R290) -/

theorem taskFlags_resetWith (p : Params) (d : Draws) (k : TaskId) :
    taskFlags k (State.resetWith p d) = ⟨false, false⟩ := by
  cases k <;> rfl

/-- Of SC_STATUS only `ie` and `adc_busy` are 1 (10_state.md R49). -/
theorem csrRead_resetWith_scStatus (p : Params) (d : Draws) : csrRead (State.resetWith p d) 0x00 = 0x4100 := by
  simp [csrRead, csrScStatus, State.resetWith, sinkCode]

/-- Of EMU_STATUS only TXD is 1, and DTR with its pin (10_state.md R51). -/
theorem csrRead_resetWith_emuStatus (p : Params) (d : Draws) :
    csrRead (State.resetWith p d) 0x18 = if d.dtr then 0x0014 else 0x0004 := by
  cases hdtr : d.dtr <;> simp [csrRead, csrEmuStatus, State.resetWith, emuStateCode, hdtr]

/-- Settles O1: the reset assigns each element its value, unit by unit in the order of the statement; only the tasks and
the two CSR words need a case split or a computation. -/
theorem resetGivesEveryElementItsValue : Obligations.ResetGivesEveryElementItsValue := by
  rintro p d _ rfl
  exact ⟨
    rfl, rfl, rfl, rfl, rfl,
    rfl, rfl, rfl, rfl,
    rfl, rfl, rfl, rfl,
    rfl, rfl, rfl,
    rfl, rfl, rfl, rfl,
    rfl, rfl, rfl, rfl,
    rfl, rfl, rfl, rfl,
    rfl, rfl, rfl,
    rfl, rfl, rfl, rfl,
    taskFlags_resetWith p d,
    rfl, rfl, rfl,
    rfl, rfl, rfl, rfl, rfl,
    rfl, rfl, rfl, rfl,
    rfl, rfl, rfl, rfl, rfl,
    rfl, rfl, rfl, rfl,
    csrRead_resetWith_scStatus p d, csrRead_resetWith_emuStatus p d⟩

/-- A cleared averager is sound where it averages at least one sample. -/
theorem averagerSound_zero {p : Params} (h : 1 ≤ p.avgN.toNat) : AveragerSound p ⟨0, 0, false⟩ := by
  refine ⟨Nat.zero_le _, ⟨nofun, fun hcount => ?_⟩, Nat.le_refl 0⟩
  change 0 = p.avgN at hcount
  simp [← hcount] at h

/-- The reset levels are those of DISABLED, and no frame is on the wire (44_emulator.md R221). -/
theorem emulatorSound_resetWith (p : Params) (d : Draws) : EmulatorSound (State.resetWith p d) :=
  ⟨Nat.zero_le _, nofun, fun _ => rfl⟩

theorem resetWith_invariant {p : Params} (hlegal : legalParams p = true) (d : Draws) :
    Invariant (State.resetWith p d) := by
  obtain ⟨hconvTick, hconv, hthresh, hwidth, -, -, havg, -, -, -⟩ := (legalParams_iff p).1 hlegal
  have htick : 0 < p.tickUs.toNat := by omega
  exact {
    legal := hlegal
    clocks := ⟨Nat.succ_pos 999, htick⟩
    noHandler := rfl
    settle := Nat.zero_le _
    conversion := fun _ => ⟨hconv, Nat.le_refl _⟩
    ring := maClear_ring (State.resetWith p d) (hthresh.trans hwidth)
    detector := ⟨Nat.zero_le _, nofun⟩
    averager := averagerSound_zero havg
    callback := ⟨nofun, fun hbusy => absurd rfl hbusy⟩
    emulator := emulatorSound_resetWith p d }

/-- Settles O2: `State.reset` is one of the reset states. -/
theorem resetMeetsInvariant : Obligations.ResetMeetsInvariant :=
  ⟨fun _ d hlegal => resetWith_invariant hlegal d, resetWith_invariant (by decide) .chosen⟩

/-! ## The tick timer up to its first expiry (10_state.md R25) -/

/-- Of the parts of a time-base step only the fourth writes the tick timer's phase and the interrupt state. -/
theorem timeStep_tickCnt_irq (s : State) :
    (timeStep s).time.tickCnt = (if s.time.tickCnt + 1 = s.cfg.tickUs then 0 else s.time.tickCnt + 1) ∧
    (timeStep s).irq = (if s.time.tickCnt + 1 = s.cfg.tickUs then requestTick s.irq else s.irq) := by
  unfold timeStep
  rw [advanceBitWriter_changes_only, advanceTasks_changes_only, advanceAdc_changes_only, advanceClocks_changes_only]
  unfold advanceTick
  dsimp only
  split <;> exact ⟨rfl, rfl⟩

/-- Before the period is over the phase counts the steps, and nothing is requested. -/
theorem timeSteps_tick_of_lt {s : State} {n : Nat} (hn : s.time.tickCnt.toNat + n < s.cfg.tickUs.toNat) :
    (timeSteps n s).time.tickCnt = s.time.tickCnt + BitVec.ofNat 16 n ∧ (timeSteps n s).irq = s.irq := by
  induction n with
  | zero => simp [timeSteps]
  | succ n ih =>
    obtain ⟨hcnt, hirq⟩ := ih (by omega)
    obtain ⟨hcnt', hirq'⟩ := timeStep_tickCnt_irq (timeSteps n s)
    have hnext : s.time.tickCnt + BitVec.ofNat 16 n + 1 = s.time.tickCnt + BitVec.ofNat 16 (n + 1) := by bv_omega
    have hmore : s.time.tickCnt + BitVec.ofNat 16 (n + 1) ≠ s.cfg.tickUs := by bv_omega
    rw [timeSteps_succ, hcnt', hirq', hcnt, hirq, hnext, timeSteps_cfg, if_neg hmore, if_neg hmore]
    exact ⟨rfl, rfl⟩

/-- The step that completes the period requests a tick. -/
theorem timeSteps_irq_of_eq {s : State} {n : Nat} (hn : s.time.tickCnt.toNat + (n + 1) = s.cfg.tickUs.toNat) :
    (timeSteps (n + 1) s).irq = requestTick s.irq := by
  obtain ⟨hcnt, hirq⟩ := timeSteps_tick_of_lt (s := s) (n := n) (by omega)
  have hlast : s.time.tickCnt + BitVec.ofNat 16 n + 1 = s.cfg.tickUs := by bv_omega
  rw [timeSteps_succ, (timeStep_tickCnt_irq _).2, hcnt, hirq, timeSteps_cfg, if_pos hlast]

/-! ## A conversion past its end (40_sampleclock.md R101) -/

theorem timeStep_adc_of_idle {s : State} (hidle : s.adc.busy = false) : (timeStep s).adc = s.adc := by
  rw [timeStep_adc, advanceAdc, if_neg (by simp [hidle])]

/-- A running conversion from its end on: the converter keeps the level it took. -/
theorem timeSteps_adc_of_ge {s : State} (hbusy : s.adc.busy = true) (hpos : 1 ≤ s.adc.remain.toNat) {n : Nat}
    (hn : s.adc.remain.toNat ≤ n) :
    (timeSteps n s).adc = { s.adc with remain := 0, busy := false, result := s.pins.ain[s.adc.convCh.toFin] } := by
  induction n, hn using Nat.le_induction with
  | base =>
    obtain ⟨m, hm⟩ := Nat.exists_eq_succ_of_ne_zero (by omega : s.adc.remain.toNat ≠ 0)
    rw [hm]
    exact timeSteps_adc_of_eq hbusy hm.symm
  | succ n _ ih => rw [timeSteps_succ, timeStep_adc_of_idle (by rw [ih]), ih]

/-! ## The first tick period after reset (R291) -/

theorem timeSteps_resetWith_tickPending_iff {p : Params} (d : Draws) {n : Nat} (hn : n ≤ p.tickUs.toNat)
    (hpos : 0 < p.tickUs.toNat) :
    (timeSteps n (State.resetWith p d)).irq.tickPending = true ↔ n = p.tickUs.toNat := by
  have hphase : (State.resetWith p d).time.tickCnt.toNat = 0 := rfl
  have hcfg : (State.resetWith p d).cfg = p := rfl
  obtain hlt | heq := Nat.lt_or_eq_of_le hn
  · obtain ⟨-, hirq⟩ := timeSteps_tick_of_lt (s := State.resetWith p d) (n := n) (by rw [hphase, hcfg]; omega)
    rw [hirq]
    exact ⟨nofun, fun h => absurd h hlt.ne⟩
  · obtain ⟨m, rfl⟩ := Nat.exists_eq_succ_of_ne_zero (by omega : n ≠ 0)
    rw [timeSteps_irq_of_eq (by rw [hphase, hcfg]; omega)]
    exact ⟨fun _ => heq, fun _ => rfl⟩

/-- Settles O3: the tick timer and the converter, each from its value at reset. -/
theorem firstTickFindsResetConversionReady : Obligations.FirstTickFindsResetConversionReady := by
  rintro p d n hlegal hn _ rfl
  obtain ⟨hconvTick, hconv, -⟩ := (legalParams_iff p).1 hlegal
  refine ⟨timeSteps_resetWith_tickPending_iff d hn (by omega), ?_⟩
  obtain hlt | hge := Nat.lt_or_ge n p.adcConvUs.toNat
  · have hadc := timeSteps_adc_of_lt (s := State.resetWith p d) rfl hlt
    rw [hadc]
    exact ⟨⟨fun _ => hlt, fun _ => rfl⟩, fun h => absurd h (Nat.not_le_of_lt hlt)⟩
  · have hadc := timeSteps_adc_of_ge (s := State.resetWith p d) rfl hconv hge
    rw [hadc]
    exact ⟨⟨nofun, fun h => absurd hge (Nat.not_le_of_lt h)⟩, fun _ => rfl⟩

end Sys2Proof.Machine
end

section
/-!
What no operation touches (70_reset_and_hazards.md R310): its surroundings, and but for the interrupt requests and `ie`
the interrupt state; an internal operation leaves the port's answer as well.
-/

namespace Sys2Proof.Machine

/-! ## What surrounds an operation -/

/-- What an operation finds around it: the time, the pins, the parameters and the moves to come. -/
def surroundings (s : State) : TimeBase × Pins × Params × List Move := (s.time, s.pins, s.cfg, s.agenda)

theorem surroundings_eq_iff {s t : State} :
    surroundings t = surroundings s ↔ t.time = s.time ∧ t.pins = s.pins ∧ t.cfg = s.cfg ∧ t.agenda = s.agenda := by
  simp [surroundings]

@[simp] theorem respond_surroundings (v : Word) (s : State) : surroundings (respond v s) = surroundings s := rfl

@[simp] theorem scUnregister_surroundings (k : Sink) (s : State) :
    surroundings (scUnregister k s) = surroundings s := by
  rw [scUnregister_changes_only]; rfl

@[simp] theorem avgProcess_surroundings (v : Byte) (s : State) : surroundings (avgProcess v s) = surroundings s := by
  rw [avgProcess_changes_only]; rfl

@[simp] theorem taskStart_surroundings (k : TaskId) (s : State) : surroundings (taskStart k s) = surroundings s := by
  rw [taskStart_changes_only]; rfl

@[simp] theorem taskStop_surroundings (k : TaskId) (s : State) : surroundings (taskStop k s) = surroundings s := by
  rw [taskStop_changes_only]; rfl

@[simp] theorem taskService1_surroundings (v : Byte) (s : State) :
    surroundings (taskService1 v s) = surroundings s := by
  rw [taskService1_changes_only]; rfl

@[simp] theorem taskService2_surroundings (v : Byte) (s : State) :
    surroundings (taskService2 v s) = surroundings s := by
  rw [taskService2_changes_only]; rfl

@[simp] theorem taskService3_surroundings (v : Byte) (s : State) :
    surroundings (taskService3 v s) = surroundings s := by
  rw [taskService3_changes_only]; rfl

@[simp] theorem tickHandler_surroundings (s : State) : surroundings (tickHandler s) = surroundings s := by
  rw [tickHandler_changes_only]; rfl

@[simp] theorem edgeHandler_surroundings (s : State) : surroundings (edgeHandler s) = surroundings s := by
  rw [edgeHandler_changes_only]; rfl

@[simp] theorem emuEnter_surroundings (e : EmuState) (s : State) : surroundings (emuEnter e s) = surroundings s := by
  rw [emuEnter_changes_only]; rfl

@[simp] theorem wiStartSample_surroundings (target : CallbackTarget) (s : State) :
    surroundings (wiStartSample target s) = surroundings s := by
  rw [wiStartSample_changes_only]; rfl

@[simp] theorem wiAbort_surroundings (s : State) : surroundings (wiAbort s) = surroundings s := by
  rw [wiAbort_changes_only]; rfl

@[simp] theorem wiService_surroundings (s : State) : surroundings (wiService s) = surroundings s := by
  rw [wiService_changes_only]; rfl

theorem execEmuService_surroundings {s t : State} (h : execEmuService s = .next t) :
    surroundings t = surroundings s := by
  unfold execEmuService at h
  split at h
  case h_1 => cases h; unfold emuServiceDisabled; split <;> simp
  case h_2 => cases h; simp [emuServiceStartSample]
  case h_3 => cases h; unfold emuServiceSampling; split <;> simp
  case h_4 => split at h <;> cases h; rfl

/-- An operation changes the block's own elements only. -/
theorem exec_surroundings {i : Instr} {s t : State} (h : exec i s = .next t) : surroundings t = surroundings s := by
  cases i
  case emuService => exact execEmuService_surroundings h
  case scRegister => simp only [exec, execScRegister] at h; split at h <;> cases h <;> rfl
  case scUnregister => simp only [exec, execScUnregister] at h; split at h <;> cases h <;> [simp; rfl]
  case taskStart => simp only [exec, execTaskStart] at h; split at h <;> cases h <;> [simp; rfl]
  case taskStop => simp only [exec, execTaskStop] at h; split at h <;> cases h <;> [simp; rfl]
  case taskFinished => simp only [exec, execTaskFinished] at h; split at h <;> cases h <;> rfl
  case avgValue => simp only [exec, execAvgValue] at h; split at h <;> cases h <;> rfl
  case wiGetMph => cases h; exact respond_surroundings _ s
  case avgProcess | taskService1 | taskService2 | taskService3 | wiStartSample | wiAbort | wiService | evTick
    | evEdge =>
    cases h; simp
  all_goals cases h; rfl

/-! ## The interrupt state -/

section
variable {i : Instr} {s t : State}

/-- No effect of an operation touches `in_isr` or an overrun bit. -/
theorem IrqEffect.inIsr_overruns (h : IrqEffect s t i) :
    t.irq.inIsr = s.irq.inIsr ∧ t.irq.tickOvr = s.irq.tickOvr ∧ t.irq.edgeOvr = s.irq.edgeOvr := by
  cases h with
  | kept hirq | cli hirq | sei hirq | tick hirq | edge hirq | start hirq _ | service _ _ hirq _ =>
    rw [hirq]; exact ⟨rfl, rfl, rfl⟩

/-- Only EV.TICK clears a tick request, and nothing sets one. -/
theorem IrqEffect.tickPending_changed (h : IrqEffect s t i) (hchanged : t.irq.tickPending ≠ s.irq.tickPending) :
    s.irq.tickPending = true ∧ i = .evTick := by
  cases h with
  | tick hirq => exact ⟨by simpa [hirq] using hchanged, rfl⟩
  | kept hirq | cli hirq | sei hirq | edge hirq | start hirq _ | service _ _ hirq _ =>
    exact absurd (by rw [hirq]) hchanged

/-- EV.EDGE and the two starts of task 3 clear an edge request, and nothing sets one (10_state.md R24). -/
theorem IrqEffect.edgePending_changed (h : IrqEffect s t i) (hchanged : t.irq.edgePending ≠ s.irq.edgePending) :
    s.irq.edgePending = true ∧
      (i = .evEdge ∨ i = .taskStart 3 ∨
        (i = .wiService ∧ s.wi.state = .newSample ∧ s.cfg.speedSrc = .edgeCounter)) := by
  cases h with
  | edge hirq => exact ⟨by simpa [hirq] using hchanged, .inl rfl⟩
  | start hirq _ => exact ⟨by simpa [hirq] using hchanged, .inr (.inl rfl)⟩
  | service hstate hsrc hirq _ => exact ⟨by simpa [hirq] using hchanged, .inr (.inr ⟨rfl, hstate, hsrc⟩)⟩
  | kept hirq | cli hirq | sei hirq | tick hirq => exact absurd (by rw [hirq]) hchanged

/-- Only SYS.CLI and SYS.SEI write `ie` (10_state.md R23). -/
theorem IrqEffect.ie_kept (h : IrqEffect s t i) (hcli : i ≠ .sysCli) (hsei : i ≠ .sysSei) :
    t.irq.ie = s.irq.ie := by
  cases h with
  | cli => exact absurd rfl hcli
  | sei => exact absurd rfl hsei
  | kept hirq | tick hirq | edge hirq | start hirq _ | service _ _ hirq _ => rw [hirq]

end

/-! ## The port's answer -/

@[simp] theorem tickHandler_resp (s : State) : (tickHandler s).resp = s.resp := by
  rw [tickHandler_changes_only]

@[simp] theorem edgeHandler_resp (s : State) : (edgeHandler s).resp = s.resp := by
  rw [edgeHandler_changes_only]

@[simp] theorem emuEnter_resp (e : EmuState) (s : State) : (emuEnter e s).resp = s.resp := by
  rw [emuEnter_changes_only]

/-- An internal operation answers no command (30_encoding.md R84, 10_state.md R46). -/
theorem exec_internal_resp_faults {i : Instr} {s t : State} (hi : i.isInternal = true) (h : exec i s = .next t) :
    t.resp = s.resp ∧ t.faults = s.faults := by
  cases i
  case evTick => cases h; exact ⟨tickHandler_resp s, tickHandler_faults s⟩
  case evEdge => cases h; exact ⟨edgeHandler_resp s, edgeHandler_faults s⟩
  case emuOnComplete => cases h; exact ⟨emuEnter_resp _ s, emuEnter_faults _ s⟩
  case adcSelect | adcStart | adcReady | adcRead | emuBuildFrame | emuWriteBit => cases h; exact ⟨rfl, rfl⟩
  all_goals cases hi

/-- Settles O8: the surroundings, the effect on the interrupt state, and the answer. -/
theorem whatNoOperationTouches : Obligations.WhatNoOperationTouches := by
  intro i s t h
  obtain ⟨htime, hpins, hcfg, hagenda⟩ := surroundings_eq_iff.1 (exec_surroundings h)
  have hirq := exec_irqEffect h
  obtain ⟨hisr, htickOvr, hedgeOvr⟩ := hirq.inIsr_overruns
  exact ⟨htime, hpins, hcfg, hagenda, hisr, htickOvr, hedgeOvr, hirq.tickPending_changed, hirq.edgePending_changed,
    hirq.ie_kept, fun hi => exec_internal_resp_faults hi h⟩

end Sys2Proof.Machine
end

section
/-!
The kinds of step (20_memory.md R67, 60_exceptions.md R266), said once: a handler, time passing, a pin moving, or the
port taking a word. From them: the parameters stay.
-/

namespace Sys2Proof.Machine

/-! ## The kinds of step -/

/-- Why time passes: the agenda says so, has no move left (entry 4), or holds a command that waits for the port
(entry 5). -/
def TimePasses (s : State) : Prop :=
  s.agenda = [] ∨ (∃ rest, s.agenda = .time :: rest) ∨ (portBusy s = true ∧ ∃ w rest, s.agenda = .command w :: rest)

/-- All that a step can be. -/
inductive StepKind (s t : State) : Prop
  | tick (free : Nat) (helig : interruptEligible s = true) (hpending : s.irq.tickPending = true)
      (ht : t = returnFromInterrupt (tickHandler (enterInterrupt { s with free := free }))) : StepKind s t
  | edge (free : Nat) (ht : t = returnFromInterrupt (edgeHandler (enterInterrupt { s with free := free }))) :
      StepKind s t
  | time (rest : List Move) (helig : interruptEligible s = false) (hwhy : TimePasses s)
      (ht : t = timeStep { s with agenda := rest }) : StepKind s t
  | env (e : EnvStep) (rest : List Move) (ht : t = envStep e { s with agenda := rest }) : StepKind s t
  /-- a word that is no operation of the port -/
  | illegal (w : Word) (rest : List Move) (ht : t = raiseFault .illegalCmd w { s with agenda := rest }) : StepKind s t
  /-- the word of an operation of the port, at a free port -/
  | command (i : Instr) (rest : List Move) (hagenda : s.agenda = .command (encode i) :: rest)
      (hfree : s.emu.writing = false) (hport : i.isInternal = false)
      (hexec : exec i { s with agenda := rest } = .next t) : StepKind s t

/-- A word at a free port. -/
theorem stepKind_of_issueCommand {s t : State} {w : Word} {rest : List Move} (hagenda : s.agenda = .command w :: rest)
    (hfree : s.emu.writing = false) (h : issueCommand w { s with agenda := rest } = .next t) : StepKind s t := by
  obtain ht | ⟨i, hdecode, hport, hexec⟩ := issueCommand_cases h
  · exact .illegal w rest ht
  · rw [← encode_of_decode hdecode] at hagenda
    exact .command i rest hagenda hfree hport hexec

/-- The next move, by the head of the agenda. -/
theorem stepKind_of_nextMove {s t : State} (helig : interruptEligible s = false) (h : nextMove s = .next t) :
    StepKind s t := by
  cases hagenda : s.agenda with
  | nil =>
    cases h.symm.trans (nextMove_nil s hagenda)
    exact .time s.agenda helig (.inl hagenda) rfl
  | cons move rest =>
    cases move with
    | time =>
      cases h.symm.trans (nextMove_time s rest hagenda)
      exact .time rest helig (.inr (.inl ⟨rest, hagenda⟩)) rfl
    | env e =>
      cases h.symm.trans (nextMove_env s e rest hagenda)
      exact .env e rest rfl
    | command w =>
      cases hbusy : s.emu.writing with
      | true =>
        cases h.symm.trans (nextMove_command_busy hagenda hbusy)
        exact .time s.agenda helig (.inr (.inr ⟨hbusy, w, rest, hagenda⟩)) rfl
      | false =>
        rw [nextMove_command_free hagenda hbusy] at h
        exact stepKind_of_issueCommand hagenda hbusy h

/-- An eligible interrupt, by the handler that runs. -/
theorem stepKind_of_takeInterrupt {s t : State} (helig : interruptEligible s = true) (h : takeInterrupt s = .next t) :
    StepKind s t := by
  obtain ⟨free, ⟨hpending, htake⟩ | ⟨-, htake⟩⟩ := takeInterrupt_of_eligible helig
  · cases h.symm.trans (htake.trans (runHandler_tick _))
    exact .tick free helig hpending rfl
  · cases h.symm.trans (htake.trans (runHandler_edge _))
    exact .edge free rfl

theorem stepKind_of_step {s t : State} (h : step s = .next t) : StepKind s t := by
  obtain ⟨-, -, hmove⟩ := step_next s t h
  split at hmove
  · next helig => exact stepKind_of_takeInterrupt helig hmove
  · next helig => exact stepKind_of_nextMove (Bool.eq_false_iff.2 helig) hmove

/-! ## The parameters (R9, 20_memory.md R62) -/

@[simp] theorem tickHandler_cfg (s : State) : (tickHandler s).cfg = s.cfg := by
  rw [tickHandler_changes_only]

@[simp] theorem edgeHandler_cfg (s : State) : (edgeHandler s).cfg = s.cfg := by
  rw [edgeHandler_changes_only]

@[simp] theorem envStep_cfg (e : EnvStep) (s : State) : (envStep e s).cfg = s.cfg := by
  rw [envStep_changes_only]

/-- No step writes a parameter. -/
theorem step_cfg {s t : State} (h : step s = .next t) : t.cfg = s.cfg := by
  cases stepKind_of_step h with
  | tick _ _ _ ht | edge _ ht | time _ _ _ ht | env _ _ ht | illegal _ _ ht => simp [ht]
  | command i rest _ _ _ hexec =>
    obtain ⟨-, -, hcfg, -⟩ := surroundings_eq_iff.1 (exec_surroundings hexec)
    exact hcfg

end Sys2Proof.Machine
end

section
/-!
The CSR words (10_state.md R48 to R52): the fields of each concatenated word, the 32-bit elements over two words
(20_memory.md R63), and the reset words.
-/

namespace Sys2Proof.Machine

/-! ## The fields of the concatenated words (R49) -/

section
variable (s : State)

/-- The fields of SC_STATUS that are copied whole. -/
theorem csrScStatus_fields :
    (csrScStatus s).extractLsb' 0 2 = sinkCode s.sc.sink ∧ (csrScStatus s).extractLsb' 2 3 = s.sc.desCh ∧
    (csrScStatus s).extractLsb' 5 3 = s.sc.curCh ∧ (csrScStatus s).extractLsb' 9 3 = s.adc.convCh := by
  simp (disch := decide) only [csrScStatus, BitVec.extractLsb'_append_eq_of_add_le,
    BitVec.extractLsb'_append_eq_of_le]
  simp

theorem csrScStatus_bits :
    (csrScStatus s).getLsbD 8 = s.adc.busy ∧ (csrScStatus s).getLsbD 12 = s.irq.tickPending ∧
    (csrScStatus s).getLsbD 13 = s.irq.edgePending ∧ (csrScStatus s).getLsbD 14 = s.irq.ie ∧
    (csrScStatus s).getLsbD 15 = false := by
  simp only [csrScStatus, BitVec.getLsbD_append]
  simp

/-- The numbers of the sinks (R31) tell them apart. -/
theorem sinkCode_eq_iff (k : Sink) :
    (sinkCode k = 0 ↔ k = .none) ∧ (sinkCode k = 1 ↔ k = .speed) ∧ (sinkCode k = 2 ↔ k = .direction) := by
  cases k <;> decide

/-- Two bytes in one word, as MA_POS holds them. -/
theorem append_bytes_toNat (hi lo : Byte) : (hi ++ lo).toNat = 256 * hi.toNat + lo.toNat := by
  rw [BitVec.toNat_append, ← Nat.shiftLeft_add_eq_or_of_lt lo.isLt, Nat.shiftLeft_eq]
  omega

theorem csrPdStatus_fields :
    (csrPdStatus s).extractLsb' 0 8 = s.pd.deb ∧ (csrPdStatus s).getLsbD 8 = s.pd.asserted ∧
    (csrPdStatus s).getLsbD 9 = s.pd.fired ∧ (csrPdStatus s).extractLsb' 10 6 = 0 := by
  simp (disch := decide) only [csrPdStatus, BitVec.extractLsb'_append_eq_of_add_le,
    BitVec.extractLsb'_append_eq_of_le, BitVec.getLsbD_append]
  simp

theorem csrAvgStatus_fields :
    (csrAvgStatus s).extractLsb' 0 8 = s.avg.count ∧ (csrAvgStatus s).getLsbD 8 = s.avg.done ∧
    (csrAvgStatus s).extractLsb' 9 7 = 0 := by
  simp (disch := decide) only [csrAvgStatus, BitVec.extractLsb'_append_eq_of_add_le,
    BitVec.extractLsb'_append_eq_of_le, BitVec.getLsbD_append]
  simp

/-! ## The fields of the task and sequencer words (R50) -/

theorem csrTaskStatus_fields :
    (csrTaskStatus s).getLsbD 0 = s.tasks.t1.started ∧ (csrTaskStatus s).getLsbD 1 = s.tasks.t1.finished ∧
    (csrTaskStatus s).getLsbD 2 = s.tasks.t2.started ∧ (csrTaskStatus s).getLsbD 3 = s.tasks.t2.finished ∧
    (csrTaskStatus s).getLsbD 4 = s.tasks.t3.started ∧ (csrTaskStatus s).getLsbD 5 = s.tasks.t3.finished ∧
    (csrTaskStatus s).extractLsb' 6 10 = 0 := by
  simp (disch := decide) only [csrTaskStatus, BitVec.extractLsb'_append_eq_of_le, BitVec.getLsbD_append]
  simp

theorem csrWiStatus_fields :
    (csrWiStatus s).extractLsb' 0 3 = wiStateCode s.wi.state ∧ (csrWiStatus s).getLsbD 3 = s.wi.init ∧
    (csrWiStatus s).getLsbD 4 = s.wi.cbValid ∧ (csrWiStatus s).getLsbD 5 = (callbackCode s.wi.cbTarget).getLsbD 0 ∧
    (csrWiStatus s).getLsbD 6 = s.wi.hostDone ∧ (csrWiStatus s).extractLsb' 7 9 = 0 := by
  simp (disch := decide) only [csrWiStatus, BitVec.extractLsb'_append_eq_of_add_le,
    BitVec.extractLsb'_append_eq_of_le, BitVec.getLsbD_append]
  simp

/-- The numbers of the sequencer's states (R40) tell them apart. -/
theorem wiStateCode_eq_iff (w : WiState) :
    (wiStateCode w = 0 ↔ w = .idle) ∧ (wiStateCode w = 1 ↔ w = .newSample) ∧
    (wiStateCode w = 2 ↔ w = .samplingSpeed) ∧ (wiStateCode w = 3 ↔ w = .samplingDirection) ∧
    (wiStateCode w = 4 ↔ w = .sendFrame) := by
  cases w <;> decide

theorem callbackCode_bit_iff (c : CallbackTarget) : (callbackCode c).getLsbD 0 = true ↔ c = .host := by
  cases c <;> decide

/-- A 32-bit element over its two words, the low one at the lower address (20_memory.md R63). -/
theorem highWord_append_lowWord (v : BitVec 32) : highWord v ++ lowWord v = v :=
  BitVec.extractLsb'_append_extractLsb'

/-! ## The fields of the emulator and fault words (R51) -/

theorem csrEmuStatus_fields :
    (csrEmuStatus s).extractLsb' 0 2 = emuStateCode s.emu.state ∧ (csrEmuStatus s).getLsbD 2 = s.emu.txd ∧
    (csrEmuStatus s).getLsbD 3 = s.emu.ind ∧ (csrEmuStatus s).getLsbD 4 = s.pins.dtr ∧
    (csrEmuStatus s).getLsbD 5 = s.emu.writing ∧ (csrEmuStatus s).extractLsb' 6 6 = s.emu.bitIdx ∧
    (csrEmuStatus s).extractLsb' 12 4 = 0 := by
  simp (disch := decide) only [csrEmuStatus, BitVec.extractLsb'_append_eq_of_add_le,
    BitVec.extractLsb'_append_eq_of_le, BitVec.getLsbD_append]
  simp

/-- The numbers of the emulator's states (R44) tell them apart. -/
theorem emuStateCode_eq_iff (e : EmuState) :
    (emuStateCode e = 0 ↔ e = .disabled) ∧ (emuStateCode e = 1 ↔ e = .startSample) ∧
    (emuStateCode e = 2 ↔ e = .sampling) ∧ (emuStateCode e = 3 ↔ e = .sending) := by
  cases e <;> decide

/-- A frame over three parts. -/
theorem append_frame_parts (f : BitVec 42) : f.extractLsb' 32 10 ++ f.extractLsb' 16 16 ++ f.extractLsb' 0 16 = f := by
  have hhigh : f.extractLsb' 32 10 ++ f.extractLsb' 16 16 = f.extractLsb' 16 26 :=
    BitVec.extractLsb'_append_extractLsb'_eq_extractLsb' rfl
  rw [hhigh]
  exact BitVec.extractLsb'_append_extractLsb'

/-- The top ten bits of a frame in their word. -/
theorem csrFrameTop_fields (x : BitVec 10) :
    (0#6 ++ x).extractLsb' 0 10 = x ∧ (0#6 ++ x).extractLsb' 10 6 = 0 :=
  ⟨BitVec.extractLsb'_append_eq_right, BitVec.extractLsb'_append_eq_left⟩

/-- EMU_FRAME2, EMU_FRAME1 and EMU_FRAME0 hold the frame. -/
theorem csrFrame_words :
    (csrRead s 0x1B).extractLsb' 0 10 ++ csrRead s 0x1A ++ csrRead s 0x19 = s.emu.frame ∧
    (csrRead s 0x1B).extractLsb' 10 6 = 0 := by
  obtain ⟨htop, hzero⟩ := csrFrameTop_fields (s.emu.frame.extractLsb' 32 10)
  exact ⟨(congrArg (· ++ csrRead s 0x1A ++ csrRead s 0x19) htop).trans (append_frame_parts s.emu.frame), hzero⟩

/-- The two overrun bits in DIAG. -/
theorem csrDiag_fields (edge tick : Bool) :
    (0#14 ++ BitVec.ofBool edge ++ BitVec.ofBool tick).getLsbD 0 = tick ∧
    (0#14 ++ BitVec.ofBool edge ++ BitVec.ofBool tick).getLsbD 1 = edge ∧
    (0#14 ++ BitVec.ofBool edge ++ BitVec.ofBool tick).extractLsb' 2 14 = 0 := by
  simp (disch := decide) only [BitVec.extractLsb'_append_eq_of_le, BitVec.getLsbD_append]
  simp

end

/-! ## The fields of the parameter words (R52) -/

section
variable (p : Params)

theorem csrChannels_fields :
    (csrChannels p).extractLsb' 0 3 = p.speedCh ∧ (csrChannels p).extractLsb' 3 3 = p.dirCh ∧
    (csrChannels p).extractLsb' 6 10 = 0 := by
  simp (disch := decide) only [csrChannels, BitVec.extractLsb'_append_eq_of_add_le,
    BitVec.extractLsb'_append_eq_of_le]
  simp

theorem csrMode_fields :
    (csrMode p).getLsbD 0 = (speedSourceCode p.speedSrc).getLsbD 0 ∧ (csrMode p).getLsbD 1 = p.txdBusy ∧
    (csrMode p).getLsbD 2 = (muxSwitchCode p.muxSwitch).getLsbD 0 ∧ (csrMode p).getLsbD 3 = false ∧
    (csrMode p).extractLsb' 4 4 = p.dirShift ∧ (csrMode p).extractLsb' 8 8 = 0 := by
  simp (disch := decide) only [csrMode, BitVec.extractLsb'_append_eq_of_add_le,
    BitVec.extractLsb'_append_eq_of_le, BitVec.getLsbD_append]
  simp

theorem speedSourceCode_bit_iff (c : SpeedSource) : (speedSourceCode c).getLsbD 0 = true ↔ c = .edgeCounter := by
  cases c <;> decide

theorem muxSwitchCode_bit_iff (c : MuxSwitch) : (muxSwitchCode c).getLsbD 0 = true ↔ c = .early := by
  cases c <;> decide

end

/-! ## The words of the reset state -/

section
variable (p : Params) (d : Draws)

/-- The concatenated words of 0x01 to 0x14 whose fields are all 0 after reset. -/
theorem concatenatedWords_resetWith :
    csrPdStatus (State.resetWith p d) = 0 ∧ csrAvgStatus (State.resetWith p d) = 0 ∧
    csrTaskStatus (State.resetWith p d) = 0 ∧ csrWiStatus (State.resetWith p d) = 0 := by
  simp [csrPdStatus, csrAvgStatus, csrTaskStatus, csrWiStatus, State.resetWith, TaskFlags.idle, wiStateCode,
    callbackCode]

theorem highWord_zero : highWord 0 = 0 := by decide

theorem csrRead_resetWith_filters :
    ∀ a : Byte, a ∈ [0x01, 0x02, 0x04, 0x05, 0x06, 0x07, 0x08, 0x09] → csrRead (State.resetWith p d) a = 0 := by
  obtain ⟨hpd, havg, -, -⟩ := concatenatedWords_resetWith p d
  have hpos : (0#8 ++ 0#8 : Word) = 0 := by decide
  simp only [List.forall_mem_cons]
  exact ⟨rfl, rfl, rfl, hpos, hpd, rfl, havg, rfl, nofun⟩

theorem csrRead_resetWith_tasks (a : Byte) (hlo : 0x0A ≤ a.toNat) (hhi : a.toNat ≤ 0x14) :
    csrRead (State.resetWith p d) a = 0 := by
  obtain ⟨-, -, htask, hwi⟩ := concatenatedWords_resetWith p d
  unfold csrRead
  split
  case h_11 => exact htask
  case h_14 | h_16 => exact highWord_zero
  case h_17 => exact hwi
  case h_12 | h_13 | h_15 | h_18 | h_19 | h_20 | h_21 | h_46 => rfl
  all_goals omega

theorem csrRead_resetWith_emulator :
    ∀ a : Byte, a ∈ [0x19, 0x1A, 0x1B, 0x20, 0x21, 0x22] → csrRead (State.resetWith p d) a = 0 := by
  have hmiddle : (0#42).extractLsb' 16 16 = 0 := by decide
  have htop : (0#6 ++ (0#42).extractLsb' 32 10 : Word) = 0 := by decide
  have hdiag : (0#14 ++ BitVec.ofBool false ++ BitVec.ofBool false : Word) = 0 := by decide
  simp only [List.forall_mem_cons]
  exact ⟨rfl, hmiddle, htop, rfl, hdiag, rfl, nofun⟩

end

/-! ## The statements, word by word -/

/-- Settles O20: the fields of each word, in the order of R49, and the reset words. -/
theorem sampleClockAndFilterCsrFields : Obligations.SampleClockAndFilterCsrFields := by
  refine ⟨fun s => ?fields, fun p d => ⟨csrRead_resetWith_scStatus p d, csrRead_resetWith_filters p d⟩⟩
  obtain ⟨hsink, hdes, hcur, hconv⟩ := csrScStatus_fields s
  obtain ⟨hbusy, htick, hedge, hie, hzero⟩ := csrScStatus_bits s
  obtain ⟨hnone, hspeed, hdirection⟩ := sinkCode_eq_iff s.sc.sink
  rw [← hsink] at hnone hspeed hdirection
  obtain ⟨hdeb, hasserted, hfired, hpdZero⟩ := csrPdStatus_fields s
  obtain ⟨hcount, hdone, havgZero⟩ := csrAvgStatus_fields s
  exact ⟨hnone, hspeed, hdirection, hdes, hcur, hbusy, hconv, htick, hedge, hie, hzero,
    byteWord_toNat s.sc.settle, rfl, byteWord_toNat s.adc.result, rfl, append_bytes_toNat s.ma.fill s.ma.idx,
    hdeb, hasserted, hfired, hpdZero, rfl, hcount, hdone, havgZero, byteWord_toNat s.cntCount⟩

/-- Settles O21: the fields of each word, in the order of R50, and the reset words. -/
theorem taskAndInstrumentCsrFields : Obligations.TaskAndInstrumentCsrFields := by
  refine ⟨fun s => ?fields, csrRead_resetWith_tasks⟩
  obtain ⟨h1s, h1f, h2s, h2f, h3s, h3f, htaskZero⟩ := csrTaskStatus_fields s
  obtain ⟨hstate, hinit, hvalid, htarget, hhostDone, hwiZero⟩ := csrWiStatus_fields s
  obtain ⟨hidle, hnew, hspeed, hdirection, hsend⟩ := wiStateCode_eq_iff s.wi.state
  rw [← hstate] at hidle hnew hspeed hdirection hsend
  have hhost := callbackCode_bit_iff s.wi.cbTarget
  rw [← htarget] at hhost
  exact ⟨h1s, h1f, h2s, h2f, h3s, h3f, htaskZero, byteWord_toNat s.tasks.t1Pulses,
    highWord_append_lowWord s.tasks.t1StartMs, highWord_append_lowWord s.tasks.t3StartMs,
    hidle, hnew, hspeed, hdirection, hsend, hinit, hvalid, hhost, hhostDone, hwiZero,
    byteWord_toNat s.wi.pcap, rfl, byteWord_toNat s.wi.lastPc, rfl⟩

/-- EMU_STATUS after reset, with the DTR bit masked and alone. -/
theorem csrEmuStatus_resetWith (p : Params) (d : Draws) :
    csrRead (State.resetWith p d) 0x18 &&& 0xFFEF = 0x0004 ∧
    (csrRead (State.resetWith p d) 0x18).getLsbD 4 = d.dtr := by
  rw [csrRead_resetWith_emuStatus]
  cases d.dtr <;> decide

/-- Settles O22: the fields of each word, in the order of R51, and the reset words. -/
theorem emulatorTimeAndFaultCsrFields : Obligations.EmulatorTimeAndFaultCsrFields := by
  refine ⟨fun s => ?fields, fun p d => ?reset⟩
  case fields =>
    obtain ⟨hstate, htxd, hind, hdtr, hwriting, hidx, hemuZero⟩ := csrEmuStatus_fields s
    obtain ⟨hdisabled, hstart, hsampling, hsending⟩ := emuStateCode_eq_iff s.emu.state
    rw [← hstate] at hdisabled hstart hsampling hsending
    obtain ⟨hframe, hframeZero⟩ := csrFrame_words s
    obtain ⟨htickOvr, hedgeOvr, hdiagZero⟩ := csrDiag_fields s.irq.edgeOvr s.irq.tickOvr
    have hfault : (s.faults.fault.setWidth 16).toNat = s.faults.fault.toNat :=
      BitVec.toNat_setWidth_of_le (by decide)
    exact ⟨hdisabled, hstart, hsampling, hsending, htxd, hind, hdtr, hwriting, hidx, hemuZero, hframe, hframeZero,
      highWord_append_lowWord s.time.timeUs, highWord_append_lowWord s.time.timeMs, hfault, htickOvr, hedgeOvr,
      hdiagZero, rfl⟩
  case reset =>
    obtain ⟨hmasked, hdtr⟩ := csrEmuStatus_resetWith p d
    exact ⟨hmasked, hdtr, highWord_append_lowWord d.timeUs, highWord_append_lowWord d.timeMs,
      csrRead_resetWith_emulator p d⟩

/-- Settles O23: the fields of each word, in the order of R52; what a step can write leaves the parameters out. -/
theorem parameterCsrFields : Obligations.ParameterCsrFields := by
  intro s
  obtain ⟨hspeedCh, hdirCh, hchannelsZero⟩ := csrChannels_fields s.cfg
  obtain ⟨hspeedSrc, htxdBusy, hmux, hmodeGap, hshift, hmodeZero⟩ := csrMode_fields s.cfg
  have hedgeCounter := speedSourceCode_bit_iff s.cfg.speedSrc
  have hearly := muxSwitchCode_bit_iff s.cfg.muxSwitch
  rw [← hspeedSrc] at hedgeCounter
  rw [← hmux] at hearly
  exact ⟨byteWord_toNat s.cfg.settleK, rfl, rfl, byteWord_toNat s.cfg.maWidth, byteWord_toNat s.cfg.pdLow,
    byteWord_toNat s.cfg.pdThresh, byteWord_toNat s.cfg.pdDebounce, byteWord_toNat s.cfg.avgN, rfl, rfl,
    hspeedCh, hdirCh, hchannelsZero, hedgeCounter, htxdBusy, hearly, hmodeGap, hshift, hmodeZero,
    byteWord_toNat s.cfg.maWmax, fun _ _ => rfl, fun _ => step_cfg⟩

end Sys2Proof.Machine
end

section
/-!
The clocks and the tick timer over any number of time-base steps (10_state.md R22, R25).
-/

namespace Sys2Proof.Machine

/-! ## The clocks (R22) -/

theorem timeSteps_timeUs (n : Nat) (s : State) : (timeSteps n s).time.timeUs = s.time.timeUs + BitVec.ofNat 32 n := by
  induction n with
  | zero => exact (BitVec.add_zero _).symm
  | succ n ih => rw [timeSteps_succ, timeStep_timeUs, ih, BitVec.ofNat_add, ← BitVec.add_assoc]; rfl

/-- Settles O24: the microseconds count the steps, and the milliseconds follow the prescaler. -/
theorem clocksCountMicroseconds : Obligations.ClocksCountMicroseconds := by
  rintro n s hpresc _ rfl
  obtain ⟨hphase, hms⟩ := timeSteps_msPresc_timeMs hpresc n
  exact ⟨timeSteps_timeUs n s, hms, hphase⟩

/-! ## The tick timer (R25) -/

/-- The interrupt state after `k` expiries of the tick timer: the first pends, and one that finds a request pending is
lost. -/
structure TickRequests (k : Nat) (i j : Interrupts) : Prop where
  pending : j.tickPending = true ↔ i.tickPending = true ∨ 1 ≤ k
  overrun : j.tickOvr = true ↔ i.tickOvr = true ∨ (i.tickPending = true ∧ 1 ≤ k) ∨ 2 ≤ k

theorem TickRequests.refl (i : Interrupts) : TickRequests 0 i i where
  pending := by simp
  overrun := by simp

/-- One more expiry. -/
theorem TickRequests.requestTick {k : Nat} {i j : Interrupts} (h : TickRequests k i j) :
    TickRequests (k + 1) i (requestTick j) := by
  obtain ⟨hpending, hoverrun⟩ := h
  unfold Machine.requestTick
  split
  · next hfull =>
    have hsome := hpending.1 hfull
    exact ⟨⟨fun _ => .inr (by omega), fun _ => hfull⟩,
      ⟨fun _ => .inr (hsome.imp (fun hi => ⟨hi, by omega⟩) (by omega)), fun _ => rfl⟩⟩
  · next hfree =>
    obtain ⟨hi, hk⟩ := not_or.1 (mt hpending.2 hfree)
    obtain rfl : k = 0 := by omega
    exact ⟨⟨fun _ => .inr (by omega), fun _ => rfl⟩, by simpa [hi] using hoverrun⟩

/-- The tick timer's phase and its requests after `n` time-base steps. -/
theorem timeSteps_tick {s : State} (hphase : s.time.tickCnt.toNat < s.cfg.tickUs.toNat) (n : Nat) :
    (timeSteps n s).time.tickCnt.toNat = (s.time.tickCnt.toNat + n) % s.cfg.tickUs.toNat ∧
    TickRequests ((s.time.tickCnt.toNat + n) / s.cfg.tickUs.toNat) s.irq (timeSteps n s).irq := by
  induction n with
  | zero =>
    rw [Nat.add_zero, Nat.mod_eq_of_lt hphase, Nat.div_eq_of_lt hphase]
    exact ⟨rfl, .refl s.irq⟩
  | succ n ih =>
    obtain ⟨hcnt, hrequests⟩ := ih
    obtain ⟨hcnt', hirq'⟩ := timeStep_tickCnt_irq (timeSteps n s)
    have hlt := Nat.mod_lt (s.time.tickCnt.toNat + n) (by omega : 0 < s.cfg.tickUs.toNat)
    rw [timeSteps_succ, hcnt', hirq', timeSteps_cfg, ← Nat.add_assoc]
    by_cases hlast : (s.time.tickCnt.toNat + n) % s.cfg.tickUs.toNat + 1 = s.cfg.tickUs.toNat
    · have hexpires : (timeSteps n s).time.tickCnt + 1 = s.cfg.tickUs := by bv_omega
      obtain ⟨hdiv, hmod⟩ := succ_div_mod_of_eq hlast
      rw [if_pos hexpires, if_pos hexpires, hdiv, hmod]
      exact ⟨rfl, hrequests.requestTick⟩
    · have hcounts : (timeSteps n s).time.tickCnt + 1 ≠ s.cfg.tickUs := by bv_omega
      obtain ⟨hdiv, hmod⟩ := succ_div_mod_of_lt (m := s.time.tickCnt.toNat + n) (d := s.cfg.tickUs.toNat) (by omega)
      rw [if_neg hcounts, if_neg hcounts, hdiv, hmod, ← hcnt]
      exact ⟨by bv_omega, hrequests⟩

/-- Settles O25: the phase and the requests, at the statement's number of expiries. -/
theorem tickTimerExpiresEveryPeriod : Obligations.TickTimerExpiresEveryPeriod := by
  rintro n s hphase _ rfl _ rfl
  obtain ⟨hcnt, hpending, hoverrun⟩ := timeSteps_tick hphase n
  exact ⟨hcnt, hpending, hoverrun⟩

end Sys2Proof.Machine
end

section
/-!
What each kind of step does to the faults, the diagnostics, the sample clock and the time (10_state.md R22, R28 to R32).
-/

namespace Sys2Proof.Machine

/-! ## An operation of the port and the sample clock (R104, R105) -/

@[simp] theorem avgProcess_sc (v : Byte) (s : State) : (avgProcess v s).sc = s.sc := by
  rw [avgProcess_changes_only]

@[simp] theorem taskService1_sc (v : Byte) (s : State) : (taskService1 v s).sc = s.sc := by
  rw [taskService1_changes_only]

@[simp] theorem taskService2_sc (v : Byte) (s : State) : (taskService2 v s).sc = s.sc := by
  rw [taskService2_changes_only]

@[simp] theorem taskService3_sc (v : Byte) (s : State) : (taskService3 v s).sc = s.sc := by
  rw [taskService3_changes_only]

@[simp] theorem wiStartSample_sc (target : CallbackTarget) (s : State) : (wiStartSample target s).sc = s.sc := by
  rw [wiStartSample_changes_only]

@[simp] theorem emuEnter_sc (e : EmuState) (s : State) : (emuEnter e s).sc = s.sc := by
  rw [emuEnter_changes_only]

@[simp] theorem deliverSample_sc (v : Byte) (s : State) : (deliverSample v s).sc = s.sc := by
  rw [deliverSample_changes_only]

/-- UNIT and OP are those of a command whose rule registers or unregisters a sink (R31). -/
abbrev WritesSink (i : Instr) : Prop :=
  (unitOpField (encode i)).toNat ∈ [0x10, 0x11, 0x70, 0x71, 0x82, 0x83, 0x90]

/-- All that an operation of the port can do to the sample clock: the multiplexer's channel and the stale count stay. -/
inductive ClockEffect (s t : State) : Instr → Prop
  | kept {i : Instr} (hsc : t.sc = s.sc) : ClockEffect s t i
  | registration {i : Instr} (hwrites : WritesSink i)
      (hsc : t.sc = { s.sc with sink := t.sc.sink, desCh := t.sc.desCh, settle := t.sc.settle }) : ClockEffect s t i

theorem ClockEffect.curCh_staleCnt {s t : State} {i : Instr} (h : ClockEffect s t i) :
    t.sc.curCh = s.sc.curCh ∧ t.sc.staleCnt = s.sc.staleCnt := by
  cases h with
  | kept hsc | registration _ hsc => rw [hsc]; exact ⟨rfl, rfl⟩

theorem ClockEffect.writesSink {s t : State} {i : Instr} (h : ClockEffect s t i) (hchanged : t.sc.sink ≠ s.sc.sink) :
    WritesSink i := by
  cases h with
  | kept hsc => exact absurd (by rw [hsc]) hchanged
  | registration hwrites => exact hwrites

/-- EMU.SERVICE reaches the sample clock through WI.ABORT only (44_emulator.md R224). -/
theorem emuService_clockEffect {s t : State} (h : execEmuService s = .next t) : ClockEffect s t .emuService := by
  unfold execEmuService at h
  split at h
  case h_1 => cases h; unfold emuServiceDisabled; split <;> exact .kept (by simp)
  case h_2 => cases h; exact .kept (by simp [emuServiceStartSample])
  case h_3 =>
    cases h
    unfold emuServiceSampling
    split
    · exact .registration (by decide) (by rw [respond_sc, emuEnter_sc, wiAbort_changes_only])
    · exact .kept rfl
  case h_4 => split at h <;> cases h; exact .kept rfl

/-- What each operation of the port does to the sample clock. -/
theorem exec_clockEffect {i : Instr} {s t : State} (hport : i.isInternal = false) (h : exec i s = .next t) :
    ClockEffect s t i := by
  cases i
  case adcSelect | adcStart | adcReady | adcRead | emuOnComplete | emuBuildFrame | emuWriteBit | evTick | evEdge =>
    cases hport
  case emuService => exact emuService_clockEffect h
  case wiService => cases h; exact .registration (by decide) (by rw [respond_sc, wiService_changes_only])
  case wiAbort => cases h; exact .registration (by decide) (by rw [respond_sc, wiAbort_changes_only])
  case scRegister =>
    simp only [exec, execScRegister] at h
    split at h <;> cases h
    · exact .registration (by simp [WritesSink, encode]) rfl
    · exact .kept rfl
  case scUnregister =>
    simp only [exec, execScUnregister] at h
    split at h <;> cases h
    · exact .registration (by simp [WritesSink, encode]) (by rw [respond_sc, scUnregister_changes_only])
    · exact .kept rfl
  case taskStart =>
    simp only [exec, execTaskStart] at h
    split at h <;> cases h
    · exact .registration (by simp [WritesSink, encode]) (by rw [respond_sc, taskStart_changes_only])
    · exact .kept rfl
  case taskStop =>
    simp only [exec, execTaskStop] at h
    split at h <;> cases h
    · exact .registration (by simp [WritesSink, encode]) (by rw [respond_sc, taskStop_changes_only])
    · exact .kept rfl
  case taskFinished => simp only [exec, execTaskFinished] at h; split at h <;> cases h <;> exact .kept rfl
  case avgValue => simp only [exec, execAvgValue] at h; split at h <;> cases h <;> exact .kept rfl
  case wiGetMph => cases h; exact .kept (respond_sc _ s)
  case avgProcess | taskService1 | taskService2 | taskService3 | wiStartSample => cases h; exact .kept (by simp)
  all_goals cases h; exact .kept rfl

/-! ## The handlers, time and the environment, and the sample clock (R110) -/

/-- All that EV.TICK can do to the sample clock: a stale tick counts, any other can count the settling down and can
reprogram the multiplexer. -/
inductive TickClockEffect (c d : SampleClock) : Prop
  | stale (n : Word) (hle : c.staleCnt.toNat ≤ n.toNat) (hd : d = { c with staleCnt := n })
  | sampled (settle : Byte) (ch : Channel) (hle : settle.toNat ≤ c.settle.toNat) (hch : ch = c.curCh ∨ ch = c.desCh)
      (hd : d = { c with settle := settle, curCh := ch })

theorem saturatingSucc_le (n : Word) : n.toNat ≤ (if n = 0xFFFF then 0xFFFF else n + 1 : Word).toNat := by
  split
  · next hfull => rw [hfull]
  · bv_omega

theorem tickHandler_clockEffect (s : State) : TickClockEffect s.sc (tickHandler s).sc := by
  cases hbusy : s.adc.busy with
  | true => rw [tickHandler_of_busy hbusy]; exact .stale _ (saturatingSucc_le _) rfl
  | false =>
    by_cases hsettle : s.sc.settle = 0
    · rw [tickHandler_of_delivering hbusy hsettle, deliverSample_sc]
      exact .sampled s.sc.settle s.sc.desCh (Nat.le_refl _) (.inr rfl) rfl
    · rw [tickHandler_of_settling hbusy hsettle rfl]
      refine .sampled _ _ (by bv_omega) ?_ rfl
      split
      · exact .inr rfl
      · exact .inl rfl

theorem TickClockEffect.sink {c d : SampleClock} (h : TickClockEffect c d) : d.sink = c.sink := by
  cases h with
  | stale _ _ hd | sampled _ _ _ _ hd => rw [hd]

theorem TickClockEffect.staleCnt_le {c d : SampleClock} (h : TickClockEffect c d) :
    c.staleCnt.toNat ≤ d.staleCnt.toNat := by
  cases h with
  | stale _ hle hd => rwa [hd]
  | sampled _ _ _ _ hd => rw [hd]

theorem TickClockEffect.curCh_changed {c d : SampleClock} (h : TickClockEffect c d) (hchanged : d.curCh ≠ c.curCh) :
    d.curCh = c.desCh := by
  cases h with
  | stale _ _ hd => exact absurd (by rw [hd]) hchanged
  | sampled _ ch _ hch hd =>
    rw [hd] at hchanged ⊢
    exact hch.resolve_left hchanged

@[simp] theorem edgeHandler_sc (s : State) : (edgeHandler s).sc = s.sc := by
  rw [edgeHandler_changes_only]

@[simp] theorem timeStep_sc (s : State) : (timeStep s).sc = s.sc := by
  rw [timeStep_changes_only]

@[simp] theorem envStep_sc (e : EnvStep) (s : State) : (envStep e s).sc = s.sc := by
  rw [envStep_changes_only]

/-! ## The faults (R30, 60_exceptions.md R262) -/

/-- The fault bits stay set, and with one set the first faulting word stays. -/
structure FaultsHeld (f g : FaultUnit) : Prop where
  bits : f.fault &&& g.fault = f.fault
  firstWord : f.fault ≠ 0 → g.faultCmd = f.faultCmd

theorem FaultsHeld.of_eq {f g : FaultUnit} (h : g = f) : FaultsHeld f g := by
  subst h
  exact ⟨BitVec.and_self, fun _ => rfl⟩

theorem raiseFault_faultsHeld (c : FaultCode) (w : Word) (s : State) :
    FaultsHeld s.faults (raiseFault c w s).faults where
  bits := by rw [raiseFault_fault]; exact (by decide : ∀ f b : BitVec 2, f &&& (f ||| b) = f) _ _
  firstWord hset := if_neg hset

@[simp] theorem timeStep_faults (s : State) : (timeStep s).faults = s.faults := by
  rw [timeStep_changes_only]

@[simp] theorem envStep_faults (e : EnvStep) (s : State) : (envStep e s).faults = s.faults := by
  rw [envStep_changes_only]

theorem exec_faultsHeld {i : Instr} {s t : State} (h : exec i s = .next t) : FaultsHeld s.faults t.faults := by
  cases exec_faultEffect h with
  | kept hfaults => exact .of_eq hfaults
  | illegalOperand _ ht | notDone _ ht => rw [ht]; exact raiseFault_faultsHeld _ _ s

theorem step_faultsHeld {s t : State} (h : step s = .next t) : FaultsHeld s.faults t.faults := by
  cases stepKind_of_step h with
  | tick _ _ _ ht | edge _ ht | time _ _ _ ht | env _ _ ht => exact .of_eq (by simp [ht])
  | illegal w rest ht => rw [ht]; exact raiseFault_faultsHeld _ w { s with agenda := rest }
  | command _ rest _ _ _ hexec => exact exec_faultsHeld (s := { s with agenda := rest }) hexec

/-! ## The overrun bits (R29) -/

/-- The overrun bits stay set. -/
structure OverrunsHeld (i j : Interrupts) : Prop where
  tick : i.tickOvr = true → j.tickOvr = true
  edge : i.edgeOvr = true → j.edgeOvr = true

theorem OverrunsHeld.of_eq {i j : Interrupts} (htick : j.tickOvr = i.tickOvr) (hedge : j.edgeOvr = i.edgeOvr) :
    OverrunsHeld i j :=
  ⟨htick.trans, hedge.trans⟩

theorem requestTick_overrunsHeld (i : Interrupts) : OverrunsHeld i (requestTick i) := by
  unfold requestTick
  split
  · exact ⟨fun _ => rfl, id⟩
  · exact ⟨id, id⟩

theorem requestEdge_overrunsHeld (i : Interrupts) : OverrunsHeld i (requestEdge i) := by
  unfold requestEdge
  split
  · exact ⟨id, fun _ => rfl⟩
  · exact ⟨id, id⟩

theorem timeStep_overrunsHeld (s : State) : OverrunsHeld s.irq (timeStep s).irq := by
  rw [(timeStep_tickCnt_irq s).2]
  split
  · exact requestTick_overrunsHeld s.irq
  · exact .of_eq rfl rfl

theorem envStep_overrunsHeld (e : EnvStep) (s : State) : OverrunsHeld s.irq (envStep e s).irq := by
  cases e with
  | dtr level => exact .of_eq rfl rfl
  | ain ch v => exact .of_eq rfl rfl
  | pulse level =>
    unfold envStep
    dsimp only
    split
    · exact requestEdge_overrunsHeld s.irq
    · exact .of_eq rfl rfl

theorem step_overrunsHeld {s t : State} (h : step s = .next t) : OverrunsHeld s.irq t.irq := by
  cases stepKind_of_step h with
  | tick _ _ _ ht => rw [ht, tickHandler_changes_only]; exact .of_eq rfl rfl
  | edge _ ht => rw [ht, edgeHandler_changes_only]; exact .of_eq rfl rfl
  | time rest _ _ ht => rw [ht]; exact timeStep_overrunsHeld { s with agenda := rest }
  | env e rest ht => rw [ht]; exact envStep_overrunsHeld e { s with agenda := rest }
  | illegal _ _ ht => rw [ht]; exact .of_eq rfl rfl
  | command _ _ _ _ _ hexec =>
    obtain ⟨-, htick, hedge⟩ := (exec_irqEffect hexec).inIsr_overruns
    exact .of_eq htick hedge

/-! ## The stale count (R28) -/

theorem step_staleCnt_le {s t : State} (h : step s = .next t) : s.sc.staleCnt.toNat ≤ t.sc.staleCnt.toNat := by
  cases stepKind_of_step h with
  | tick free _ _ ht => rw [ht]; exact (tickHandler_clockEffect (enterInterrupt { s with free := free })).staleCnt_le
  | edge _ ht | time _ _ _ ht | env _ _ ht | illegal _ _ ht => simp [ht]
  | command _ _ _ _ hport hexec =>
    obtain ⟨-, hstale⟩ := (exec_clockEffect hport hexec).curCh_staleCnt
    exact (congrArg BitVec.toNat hstale).ge

/-- Settles O7: the faults, the overrun bits and the stale count, each over the kinds of step. -/
theorem noStepClearsFaultsOrDiagnostics : Obligations.NoStepClearsFaultsOrDiagnostics := by
  intro s t h
  obtain ⟨hbits, hfirst⟩ := step_faultsHeld h
  obtain ⟨htick, hedge⟩ := step_overrunsHeld h
  exact ⟨hbits, hfirst, htick, hedge, step_staleCnt_le h⟩

/-! ## The writers of the sink, the channel and the time (R22, R31, R32) -/

theorem step_sink_changed {s t : State} (h : step s = .next t) (hchanged : t.sc.sink ≠ s.sc.sink) :
    ∃ i rest, s.agenda = .command (encode i) :: rest ∧ WritesSink i := by
  cases stepKind_of_step h with
  | tick free _ _ ht =>
    rw [ht] at hchanged
    exact absurd (tickHandler_clockEffect (enterInterrupt { s with free := free })).sink hchanged
  | edge _ ht | time _ _ _ ht | env _ _ ht | illegal _ _ ht => exact absurd (by simp [ht]) hchanged
  | command i rest hagenda _ hport hexec =>
    exact ⟨i, rest, hagenda, (exec_clockEffect hport hexec).writesSink hchanged⟩

theorem step_curCh_changed {s t : State} (h : step s = .next t) (hchanged : t.sc.curCh ≠ s.sc.curCh) :
    interruptEligible s = true ∧ s.irq.tickPending = true ∧ t.sc.curCh = s.sc.desCh := by
  cases stepKind_of_step h with
  | tick free helig hpending ht =>
    rw [ht] at hchanged ⊢
    exact ⟨helig, hpending, (tickHandler_clockEffect (enterInterrupt { s with free := free })).curCh_changed hchanged⟩
  | edge _ ht | time _ _ _ ht | env _ _ ht | illegal _ _ ht => exact absurd (by simp [ht]) hchanged
  | command _ _ _ _ hport hexec => exact absurd (exec_clockEffect hport hexec).curCh_staleCnt.1 hchanged

/-- The time after a time-base step, from the time and P_TICK_US alone. -/
theorem timeStep_time (s : State) :
    (timeStep s).time =
      { timeUs := s.time.timeUs + 1
        timeMs := if s.time.msPresc + 1 = 1000 then s.time.timeMs + 1 else s.time.timeMs
        msPresc := if s.time.msPresc + 1 = 1000 then 0 else s.time.msPresc + 1
        tickCnt := if s.time.tickCnt + 1 = s.cfg.tickUs then 0 else s.time.tickCnt + 1 } := by
  rw [← timeStep_timeUs, ← (timeStep_msPresc_timeMs s).1, ← (timeStep_msPresc_timeMs s).2,
    ← (timeStep_tickCnt_irq s).1]

@[simp] theorem tickHandler_time (s : State) : (tickHandler s).time = s.time := by
  rw [tickHandler_changes_only]

@[simp] theorem edgeHandler_time (s : State) : (edgeHandler s).time = s.time := by
  rw [edgeHandler_changes_only]

@[simp] theorem envStep_time (e : EnvStep) (s : State) : (envStep e s).time = s.time := by
  rw [envStep_changes_only]

theorem step_time_changed {s t : State} (h : step s = .next t) (hchanged : t.time ≠ s.time) :
    interruptEligible s = false ∧ t.time = (timeStep s).time ∧ TimePasses s := by
  cases stepKind_of_step h with
  | time rest helig hwhy ht => exact ⟨helig, by rw [ht, timeStep_time, timeStep_time], hwhy⟩
  | tick _ _ _ ht | edge _ ht | env _ _ ht | illegal _ _ ht => exact absurd (by simp [ht]) hchanged
  | command _ _ _ _ _ hexec =>
    obtain ⟨htime, -, -, -⟩ := surroundings_eq_iff.1 (exec_surroundings hexec)
    exact absurd htime hchanged

/-- Settles O9: each of the three has its writers among the kinds of step. -/
theorem sampleClockAndTimeHaveOnlyTheirWriters : Obligations.SampleClockAndTimeHaveOnlyTheirWriters := by
  refine fun s t h => ⟨fun hchanged => ?_, step_curCh_changed h, step_time_changed h⟩
  obtain ⟨i, rest, hagenda, hwrites⟩ := step_sink_changed h hchanged
  exact ⟨encode i, rest, hagenda, hwrites⟩

end Sys2Proof.Machine
end

section
/-!
The block's invariant over a step: what every operation keeps of the units (the configuration, the clocks, the sample
clock, the filters, the sequencer), what an operation of the port and a time-base step keep of the emulator, and the
kinds of step put together.
-/

namespace Sys2Proof.Machine

/-! ## The units apart from the emulator -/

/-- The invariant without `in_isr`, which is 1 within a handler, and without the emulator, whose output levels depend on
a free port. Every operation keeps it in every state. -/
structure UnitsSound (s : State) : Prop where
  legal : legalParams s.cfg = true
  clocks : s.time.msPresc.toNat < 1000 ∧ s.time.tickCnt.toNat < s.cfg.tickUs.toNat
  settle : s.sc.settle.toNat ≤ s.cfg.settleK.toNat
  conversion : s.adc.busy = true → 1 ≤ s.adc.remain.toNat ∧ s.adc.remain.toNat ≤ s.cfg.adcConvUs.toNat
  ring : RingSound s.cfg s.ma
  detector : s.pd.deb.toNat ≤ s.cfg.pdDebounce.toNat ∧ (s.pd.fired = true → s.pd.asserted = true)
  averager : AveragerSound s.cfg s.avg
  callback : s.wi.cbValid = true ↔ s.wi.state ≠ .idle

theorem Invariant.unitsSound {s : State} (h : Invariant s) : UnitsSound s := { h with }

theorem UnitsSound.invariant {s : State} (h : UnitsSound s) (hisr : s.irq.inIsr = false) (hemu : EmulatorSound s) :
    Invariant s := { h with noHandler := hisr, emulator := hemu }

section
variable {s : State}

/-! ### What no unit's condition reads -/

theorem respond_unitsSound (v : Word) (h : UnitsSound s) : UnitsSound (respond v s) := { h with }

theorem raiseFault_unitsSound (c : FaultCode) (w : Word) (h : UnitsSound s) : UnitsSound (raiseFault c w s) :=
  { h with }

theorem UnitsSound.withTasks (h : UnitsSound s) (k : Tasks) : UnitsSound { s with tasks := k } := { h with }

theorem emuEnter_unitsSound (e : EmuState) (h : UnitsSound s) : UnitsSound (emuEnter e s) := by
  rw [emuEnter_changes_only]
  exact { h with }

/-! ### The sample clock and the converter (R100 to R105) -/

theorem scRegister_unitsSound (k : Sink) (ch : Channel) (h : UnitsSound s) : UnitsSound (scRegister k ch s) :=
  { h with settle := Nat.le_refl _ }

theorem scUnregister_unitsSound (k : Sink) (h : UnitsSound s) : UnitsSound (scUnregister k s) := by
  rw [scUnregister_changes_only]
  exact { h with }

theorem adcSelect_unitsSound (ch : Channel) (h : UnitsSound s) : UnitsSound (adcSelect ch s) := { h with }

/-- A conversion starts with P_ADC_CONV_US, which is at least 1 (R101, 00_scope.md R9). -/
theorem adcStart_unitsSound (h : UnitsSound s) : UnitsSound (adcStart s) := by
  obtain ⟨-, hconv, -⟩ := (legalParams_iff s.cfg).1 h.legal
  exact { h with conversion := fun _ => ⟨hconv, Nat.le_refl _⟩ }

/-! ### The filters (R130 to R151) -/

theorem maClear_unitsSound (h : UnitsSound s) : UnitsSound (maClear s) := by
  obtain ⟨-, -, hthresh, hwidth, -⟩ := (legalParams_iff s.cfg).1 h.legal
  exact { h with ring := maClear_ring s (hthresh.trans hwidth) }

theorem maPush_unitsSound (v : Byte) (h : UnitsSound s) : UnitsSound (maPush v s) :=
  { h with ring := maPush_ring v s h.ring }

theorem pdClear_unitsSound (h : UnitsSound s) : UnitsSound (pdClear s) :=
  { maClear_unitsSound h with detector := ⟨Nat.zero_le _, nofun⟩ }

/-- The debounce counter is reloaded with P_PD_DEBOUNCE or counts down, and a fire is asserted (R141). -/
theorem pdProcess_detector (v : Byte) (h : s.pd.deb.toNat ≤ s.cfg.pdDebounce.toNat) :
    (pdProcess v s).pd.deb.toNat ≤ s.cfg.pdDebounce.toNat ∧
    ((pdProcess v s).pd.fired = true → (pdProcess v s).pd.asserted = true) := by
  refine ⟨?_, fun hfired => ((pdProcess_fired_iff v s).1 hfired).1⟩
  rw [pdProcess_deb]
  split <;> omega

theorem pdProcess_unitsSound (v : Byte) (h : UnitsSound s) : UnitsSound (pdProcess v s) :=
  { h with
    ring := maPush_ring (lowBit s.cfg v) s h.ring
    detector := pdProcess_detector v h.detector.1 }

theorem avgClear_unitsSound (h : UnitsSound s) : UnitsSound (avgClear s) := by
  obtain ⟨-, -, -, -, -, -, havg, -⟩ := (legalParams_iff s.cfg).1 h.legal
  exact { h with averager := averagerSound_zero havg }

/-- A running averager has fewer than P_AVG_N samples, so one more fits its count and its sum (R151). -/
theorem avgProcess_averagerSound (v : Byte) (h : AveragerSound s.cfg s.avg) :
    AveragerSound s.cfg (avgProcess v s).avg := by
  obtain ⟨hcount, hdone, hsum⟩ := h
  cases hrunning : s.avg.done with
  | true => rw [avgProcess_of_done hrunning]; exact ⟨hcount, hdone, hsum⟩
  | false =>
    have hlt : s.avg.count.toNat < s.cfg.avgN.toNat := by
      refine Nat.lt_of_le_of_ne hcount fun heq => ?_
      simp [hdone.2 (BitVec.eq_of_toNat_eq heq)] at hrunning
    have hn := s.cfg.avgN.isLt
    have hv := v.isLt
    have hcount' : (s.avg.count + 1).toNat = s.avg.count.toNat + 1 := by bv_omega
    have hsum' : (s.avg.sum + v.setWidth 16).toNat = s.avg.sum.toNat + v.toNat := by
      rw [BitVec.toNat_add, BitVec.toNat_setWidth]
      omega
    rw [avgProcess_of_running hrunning]
    exact ⟨by rw [hcount']; exact hlt, beq_iff_eq, by rw [hsum', hcount']; omega⟩

theorem avgProcess_unitsSound (v : Byte) (h : UnitsSound s) : UnitsSound (avgProcess v s) := by
  have haverager := avgProcess_averagerSound v h.averager
  rw [avgProcess_changes_only]
  exact { h with averager := haverager }

/-! ### The tasks (R170 to R177) -/

/-- A start clears the task's filter, sets its flags and timer, and registers a sink. -/
theorem taskStart_unitsSound (k : TaskId) (h : UnitsSound s) : UnitsSound (taskStart k s) := by
  cases k with
  | speed => exact scRegister_unitsSound _ _ ((pdClear_unitsSound h).withTasks _)
  | direction => exact scRegister_unitsSound _ _ ((avgClear_unitsSound h).withTasks _)
  | edge => exact { h with }

theorem taskStop_unitsSound (k : TaskId) (h : UnitsSound s) : UnitsSound (taskStop k s) := by
  rw [taskStop_changes_only]
  exact { h with }

theorem taskService1_unitsSound (v : Byte) (h : UnitsSound s) : UnitsSound (taskService1 v s) := by
  unfold taskService1
  split
  · exact pdProcess_unitsSound v h
  · exact h

theorem taskService2_unitsSound (v : Byte) (h : UnitsSound s) : UnitsSound (taskService2 v s) := by
  by_cases hrunning : s.tasks.t2 = ⟨true, false⟩
  · rw [taskService2_of_running hrunning]
    exact (avgProcess_unitsSound v h).withTasks _
  · rwa [taskService2_of_not_running hrunning]

theorem taskService3_unitsSound (v : Byte) (h : UnitsSound s) : UnitsSound (taskService3 v s) := by
  rw [taskService3_changes_only]
  exact { h with }

/-! ### The handlers (R110, R178) -/

theorem deliverSample_unitsSound (v : Byte) (h : UnitsSound s) : UnitsSound (deliverSample v s) := by
  unfold deliverSample
  split
  · exact h
  · exact taskService1_unitsSound v h
  · exact taskService2_unitsSound v h

/-- EV.TICK, on each of its three paths; a settling tick counts down from a value that is not 0. -/
theorem tickHandler_unitsSound (h : UnitsSound s) : UnitsSound (tickHandler s) := by
  cases hbusy : s.adc.busy with
  | true => rw [tickHandler_of_busy hbusy]; exact { h with }
  | false =>
    rw [tickHandler_of_ready hbusy]
    split
    · next hsettle =>
      have hdown : (s.sc.settle - 1).toNat ≤ s.cfg.settleK.toNat := by
        have := h.settle
        bv_omega
      exact adcStart_unitsSound { h with settle := hdown }
    · exact deliverSample_unitsSound _ (adcStart_unitsSound { h with })

theorem edgeHandler_unitsSound (h : UnitsSound s) : UnitsSound (edgeHandler s) := by
  rw [edgeHandler_changes_only]
  exact { h with }

/-! ### The sequencer (R190 to R201) -/

/-- A new state of the sequencer has a callback stored exactly while it is not idle. -/
theorem UnitsSound.withWi (h : UnitsSound s) (w : Instrument) (hcallback : w.cbValid = true ↔ w.state ≠ .idle) :
    UnitsSound { s with wi := w } := { h with callback := hcallback }

theorem wiStartSample_unitsSound (target : CallbackTarget) (h : UnitsSound s) :
    UnitsSound (wiStartSample target s) := by
  unfold wiStartSample
  split
  · exact h.withWi _ (by simp)
  · exact h

theorem wiAbort_unitsSound (h : UnitsSound s) : UnitsSound (wiAbort s) := by
  by_cases hidle : s.wi.state = .idle
  · rwa [wiAbort_of_idle hidle]
  · rw [wiAbort_of_not_idle hidle]
    exact { h with callback := by simp }

/-- WI.SERVICE keeps the callback up to SEND_FRAME, and clears it with the return to IDLE (R194 to R197). -/
theorem wiService_unitsSound (h : UnitsSound s) : UnitsSound (wiService s) := by
  have hcallback := h.callback
  cases hstate : s.wi.state with
  | idle => rwa [wiService_of_idle hstate]
  | newSample =>
    rw [wiService_of_newSample hstate]
    exact (taskStart_unitsSound _ h).withWi _ (by simp [hcallback, hstate])
  | samplingSpeed =>
    cases hdone : (taskFlags (speedTask s.cfg) s).finished with
    | false => rwa [wiService_of_speed_waiting hstate hdone]
    | true =>
      rw [wiService_of_speed_finished hstate hdone]
      exact (taskStart_unitsSound _ (taskStop_unitsSound _ h)).withWi _ (by simp [hcallback, hstate])
  | samplingDirection =>
    cases hdone : s.tasks.t2.finished with
    | false => rwa [wiService_of_direction_waiting hstate hdone]
    | true =>
      have hcapture (w : Word) := (taskStop_unitsSound .direction h).withWi
        { s.wi with dcap := w, state := .sendFrame } (by simp [hcallback, hstate])
      by_cases hcount : s.avg.count = 0
      · rw [wiService_of_direction_empty hstate hdone hcount]
        exact { hcapture _ with }
      · rw [wiService_of_direction_average hstate hdone hcount]
        exact hcapture _
  | sendFrame =>
    cases htarget : s.wi.cbTarget with
    | emulator =>
      rw [wiService_of_send_emulator hstate htarget]
      exact { h with callback := by simp }
    | host =>
      rw [wiService_of_send_host hstate htarget]
      exact h.withWi _ (by simp)

/-! ### Every operation -/

theorem emuService_unitsSound {t : State} (h : UnitsSound s) (hexec : execEmuService s = .next t) : UnitsSound t := by
  unfold execEmuService at hexec
  split at hexec
  case h_1 =>
    cases hexec
    unfold emuServiceDisabled
    split
    · exact respond_unitsSound 0 h
    · exact respond_unitsSound 0 (emuEnter_unitsSound _ h)
  case h_2 => cases hexec; exact respond_unitsSound 0 (emuEnter_unitsSound _ (wiStartSample_unitsSound _ h))
  case h_3 =>
    cases hexec
    unfold emuServiceSampling
    split
    · exact respond_unitsSound 0 (emuEnter_unitsSound _ (wiAbort_unitsSound h))
    · exact respond_unitsSound 0 h
  case h_4 => split at hexec <;> cases hexec; exact { h with }

/-- An operation keeps what the units hold, command by command. -/
theorem exec_unitsSound {i : Instr} {t : State} (h : UnitsSound s) (hexec : exec i s = .next t) : UnitsSound t := by
  cases hoperand : i.wellFormed with
  | false =>
    cases hexec.symm.trans (exec_of_not_wellFormed hoperand s)
    exact raiseFault_unitsSound _ _ h
  | true =>
    cases i
    case scRegister sink ch =>
      obtain ⟨k, hk⟩ := operand_of_wellFormed (registerSinkOperand_eq_none_iff sink ch) hoperand
      simp only [exec, execScRegister, hk] at hexec
      cases hexec
      exact respond_unitsSound 0 (scRegister_unitsSound _ _ h)
    case scUnregister sink =>
      obtain ⟨k, hk⟩ := operand_of_wellFormed (unregisterSinkOperand_eq_none_iff sink) hoperand
      simp only [exec, execScUnregister, hk] at hexec
      cases hexec
      exact respond_unitsSound 0 (scUnregister_unitsSound _ h)
    case taskStart task =>
      obtain ⟨k, hk⟩ := operand_of_wellFormed (taskOperand_eq_none_iff task) hoperand
      cases hexec.symm.trans (exec_taskStart_of_operand hk s)
      exact respond_unitsSound 0 (taskStart_unitsSound k h)
    case taskStop task =>
      obtain ⟨k, hk⟩ := operand_of_wellFormed (taskOperand_eq_none_iff task) hoperand
      cases hexec.symm.trans (exec_taskStop_of_operand hk s)
      exact respond_unitsSound 0 (taskStop_unitsSound k h)
    case taskFinished task =>
      obtain ⟨k, hk⟩ := operand_of_wellFormed (taskOperand_eq_none_iff task) hoperand
      cases hexec.symm.trans (exec_taskFinished_of_operand hk s)
      exact respond_unitsSound _ h
    case avgValue =>
      rw [exec, execAvgValue] at hexec
      split at hexec <;> cases hexec
      · exact respond_unitsSound _ h
      · exact raiseFault_unitsSound _ _ h
    case maClear => cases hexec; exact respond_unitsSound 0 (maClear_unitsSound h)
    case maPush v => cases hexec; exact respond_unitsSound 0 (maPush_unitsSound v h)
    case pdClear => cases hexec; exact respond_unitsSound 0 (pdClear_unitsSound h)
    case pdProcess v => cases hexec; exact respond_unitsSound _ (pdProcess_unitsSound v h)
    case avgClear => cases hexec; exact respond_unitsSound 0 (avgClear_unitsSound h)
    case avgProcess v => cases hexec; exact respond_unitsSound 0 (avgProcess_unitsSound v h)
    case taskService1 v => cases hexec; exact respond_unitsSound 0 (taskService1_unitsSound v h)
    case taskService2 v => cases hexec; exact respond_unitsSound 0 (taskService2_unitsSound v h)
    case taskService3 v => cases hexec; exact respond_unitsSound 0 (taskService3_unitsSound v h)
    case wiInit | wiAck => cases hexec; exact respond_unitsSound 0 (h.withWi _ h.callback)
    case wiStartSample => cases hexec; exact respond_unitsSound _ (wiStartSample_unitsSound _ h)
    case wiAbort => cases hexec; exact respond_unitsSound 0 (wiAbort_unitsSound h)
    case wiService => cases hexec; exact respond_unitsSound 0 (wiService_unitsSound h)
    case emuService => exact emuService_unitsSound h hexec
    case adcSelect ch => cases hexec; exact adcSelect_unitsSound ch h
    case adcStart => cases hexec; exact adcStart_unitsSound h
    case emuOnComplete => cases hexec; exact emuEnter_unitsSound _ h
    case evTick => cases hexec; exact tickHandler_unitsSound h
    case evEdge => cases hexec; exact edgeHandler_unitsSound h
    case sysNop | sysCli | sysSei | adcReady | adcRead | maSum | maAverage | avgDone | cntClear | cntProcess | cntCount
      | wiGetMph | wiGetDir | emuBuildFrame | emuWriteBit | csrRead =>
      cases hexec; exact { h with }

end

/-! ## The emulator under an operation of the port (44_emulator.md R221, R225) -/

/-- All that an operation of the port can do to the emulator. -/
inductive EmulatorWrite (s t : State) : Prop
  | kept (hemu : t.emu = s.emu) : EmulatorWrite s t
  | entered (e : EmuState) (hemu : t.emu = (emuEnter e s).emu) : EmulatorWrite s t
  | begun (hstate : s.emu.state = .sending) (hemu : t.emu = (emuBeginFrame s).emu) : EmulatorWrite s t

/-- A change of state, with the levels of its row, whatever the sequencer did before. -/
theorem emuEnter_emu_congr (e : EmuState) {s u : State} (hemu : u.emu = s.emu) (hcfg : u.cfg = s.cfg) :
    (emuEnter e u).emu = (emuEnter e s).emu := by
  rw [emuEnter_changes_only, emuEnter_changes_only e s, hemu, hcfg]

theorem emuService_emulatorWrite {s t : State} (h : exec .emuService s = .next t) : EmulatorWrite s t := by
  cases hstate : s.emu.state with
  | disabled =>
    cases hdtr : s.pins.dtr with
    | true => cases h.symm.trans (exec_emuService_of_disabled_high hstate hdtr); exact .kept rfl
    | false => cases h.symm.trans (exec_emuService_of_disabled_low hstate hdtr); exact .entered .startSample rfl
  | startSample =>
    cases h.symm.trans (exec_emuService_of_startSample hstate)
    exact .entered .sampling (emuEnter_emu_congr _ (wiStartSample_emu _ s) (by rw [wiStartSample_changes_only]))
  | sampling =>
    cases hdtr : s.pins.dtr with
    | true =>
      cases h.symm.trans (exec_emuService_of_sampling_high hstate hdtr)
      exact .entered .disabled (emuEnter_emu_congr _ (wiAbort_emu s) (by rw [wiAbort_changes_only]))
    | false => cases h.symm.trans (exec_emuService_of_sampling_low hstate hdtr); exact .kept rfl
  | sending =>
    cases hwriting : s.emu.writing with
    | true => cases h.symm.trans (exec_emuService_of_sending_busy hstate hwriting)
    | false => cases h.symm.trans (exec_emuService_of_sending_free hstate hwriting); exact .begun hstate rfl

/-- WI.SERVICE writes the emulator only when it commits a reading for it (43_instrument.md R197). -/
theorem wiService_emulatorWrite (s : State) : EmulatorWrite s (respond 0 (wiService s)) := by
  cases hstate : s.wi.state with
  | idle => exact .kept (by rw [wiService_of_idle hstate]; rfl)
  | newSample => exact .kept (by simp [wiService_of_newSample hstate, wiServiceNewSample])
  | samplingSpeed =>
    cases hdone : (taskFlags (speedTask s.cfg) s).finished with
    | false => exact .kept (by rw [wiService_of_speed_waiting hstate hdone]; rfl)
    | true => exact .kept (by simp [wiService_of_speed_finished hstate hdone])
  | samplingDirection =>
    cases hdone : s.tasks.t2.finished with
    | false => exact .kept (by rw [wiService_of_direction_waiting hstate hdone]; rfl)
    | true =>
      by_cases hcount : s.avg.count = 0
      · exact .kept (by simp [wiService_of_direction_empty hstate hdone hcount])
      · exact .kept (by simp [wiService_of_direction_average hstate hdone hcount])
  | sendFrame =>
    cases htarget : s.wi.cbTarget with
    | emulator => exact .entered .sending (by rw [wiService_of_send_emulator hstate htarget]; rfl)
    | host => exact .kept (by rw [wiService_of_send_host hstate htarget]; rfl)

/-- What each operation of the port does to the emulator: EMU.SERVICE and WI.SERVICE apart, nothing. -/
theorem exec_emulatorWrite {i : Instr} {s t : State} (hport : i.isInternal = false) (h : exec i s = .next t) :
    EmulatorWrite s t := by
  cases i
  case adcSelect | adcStart | adcReady | adcRead | emuOnComplete | emuBuildFrame | emuWriteBit | evTick | evEdge =>
    cases hport
  case emuService => exact emuService_emulatorWrite h
  case wiService => cases h; exact wiService_emulatorWrite s
  case scRegister => simp only [exec, execScRegister] at h; split at h <;> cases h <;> exact .kept rfl
  case scUnregister => simp only [exec, execScUnregister] at h; split at h <;> cases h <;> exact .kept (by simp)
  case taskStart => simp only [exec, execTaskStart] at h; split at h <;> cases h <;> exact .kept (by simp)
  case taskStop => simp only [exec, execTaskStop] at h; split at h <;> cases h <;> exact .kept (by simp)
  case taskFinished => simp only [exec, execTaskFinished] at h; split at h <;> cases h <;> exact .kept rfl
  case avgValue => simp only [exec, execAvgValue] at h; split at h <;> cases h <;> exact .kept rfl
  case wiGetMph => cases h; exact .kept (respond_emu _ s)
  case avgProcess | taskService1 | taskService2 | taskService3 | wiStartSample | wiAbort =>
    cases h; exact .kept (by simp)
  all_goals cases h; exact .kept rfl

section
variable {s t : State}

/-- The condition on the emulator reads the parameters, the microsecond count and the emulator. -/
theorem EmulatorSound.congr (h : EmulatorSound s) (hcfg : t.cfg = s.cfg) (htime : t.time = s.time)
    (hemu : t.emu = s.emu) : EmulatorSound t := by
  rw [EmulatorSound, hcfg, htime, hemu]
  exact h

/-- A change of state sets the levels of its row, and no frame is on the wire (R221). -/
theorem emuEnter_emulatorSound (e : EmuState) (h : EmulatorSound s) (hfree : s.emu.writing = false) :
    EmulatorSound (emuEnter e s) := by
  obtain ⟨hbit, -, -⟩ := h
  rw [emuEnter_changes_only]
  refine ⟨hbit, fun hwriting => ?_, fun _ => ?_⟩
  · cases hfree.symm.trans hwriting
  · cases e <;> rfl

/-- A frame begins in SENDING, where IND is on, with symbol 0 at the start of its slot (R225). -/
theorem emuBeginFrame_emulatorSound (h : EmulatorSound s) (hfree : s.emu.writing = false)
    (hstate : s.emu.state = .sending) (hpos : 1 ≤ s.cfg.bitUs.toNat) : EmulatorSound (emuBeginFrame s) := by
  obtain ⟨-, -, hlevels⟩ := h
  have hind : s.emu.ind = true := by
    have hrow := hlevels hfree
    rw [hstate] at hrow
    exact congrArg Prod.snd hrow
  have hslot : (elapsed s.time.timeUs s.time.timeUs).toNat < s.cfg.bitUs.toNat * (0 + 1) := by
    rw [elapsed, BitVec.sub_self, BitVec.toNat_ofNat]
    omega
  rw [emuBeginFrame_changes_only]
  exact ⟨Nat.zero_le _, fun _ => ⟨hstate, hind, Nat.succ_pos 41, rfl, Nat.zero_le _, hslot⟩, nofun⟩

theorem EmulatorWrite.emulatorSound (hwrite : EmulatorWrite s t) (h : EmulatorSound s) (hfree : s.emu.writing = false)
    (hpos : 1 ≤ s.cfg.bitUs.toNat) (hcfg : t.cfg = s.cfg) (htime : t.time = s.time) : EmulatorSound t := by
  cases hwrite with
  | kept hemu => exact h.congr hcfg htime hemu
  | entered e hemu =>
    refine (emuEnter_emulatorSound e h hfree).congr ?_ ?_ hemu
    · rw [hcfg, emuEnter_changes_only]
    · rw [htime, emuEnter_changes_only]
  | begun hstate hemu => exact (emuBeginFrame_emulatorSound h hfree hstate hpos).congr hcfg htime hemu

/-! ## A time-base step (20_memory.md R70) -/

/-- Within a frame the time since its start does not wrap: 42 symbols of P_BIT_US are less than 2^32 microseconds. -/
theorem elapsed_succ_toNat {now start : BitVec 32} {bitUs : Word} {idx : Nat} (hidx : idx < 42)
    (hlt : (now - start).toNat < bitUs.toNat * (idx + 1)) : (now + 1 - start).toNat = (now - start).toNat + 1 := by
  have hbound : bitUs.toNat * (idx + 1) ≤ 65535 * 42 := Nat.mul_le_mul (by have := bitUs.isLt; omega) (by omega)
  bv_omega

/-- The emulator over a time-base step: the symbol's slot goes on, the next symbol's begins, or the frame is complete
(R232, R233). -/
theorem timeStep_emulatorSound (h : EmulatorSound s) (hpos : 1 ≤ s.cfg.bitUs.toNat) : EmulatorSound (timeStep s) := by
  obtain ⟨hbit, honWire, hlevels⟩ := h
  rw [EmulatorSound, timeStep_cfg, timeStep_timeUs]
  by_cases hedge : SymbolEdge s
  · obtain ⟨hstate, hind, hidx, -, -, -⟩ := honWire hedge.writing
    have hnext : (s.emu.bitIdx + 1).toNat = s.emu.bitIdx.toNat + 1 := by bv_omega
    by_cases hmore : (s.emu.bitIdx + 1).toNat < 42
    · rw [(timeStep_emu_of_next_symbol hedge hmore).1]
      refine ⟨hmore.le, fun _ => ⟨hstate, hind, hmore, rfl, ?_, ?_⟩, fun hfree => ?_⟩
      · rw [hnext]; exact hedge.slot.ge
      · rw [hnext, elapsed, hedge.slot]; exact Nat.mul_lt_mul_of_pos_left (by omega) hpos
      · cases hedge.writing.symm.trans hfree
    · rw [(timeStep_emu_of_completion hedge hmore).1]
      refine ⟨by dsimp only; omega, nofun, fun _ => ?_⟩
      cases s.pins.dtr <;> rfl
  · rw [(timeStep_emu_of_no_edge hedge).1]
    refine ⟨hbit, fun hwriting => ?_, hlevels⟩
    obtain ⟨hstate, hind, hidx, htxd, hstart, hend⟩ := honWire hwriting
    have hlater := elapsed_succ_toNat hidx hend
    have hnot : (s.time.timeUs + 1 - s.emu.t0).toNat ≠ s.cfg.bitUs.toNat * (s.emu.bitIdx.toNat + 1) :=
      fun hslot => hedge ⟨hwriting, hslot⟩
    rw [elapsed] at hstart hend ⊢
    exact ⟨hstate, hind, hidx, htxd, by omega, by omega⟩

/-- The two counters with a range stay in it (10_state.md R22, R25). -/
theorem timeStep_clocks (h : s.time.msPresc.toNat < 1000 ∧ s.time.tickCnt.toNat < s.cfg.tickUs.toNat) :
    (timeStep s).time.msPresc.toNat < 1000 ∧ (timeStep s).time.tickCnt.toNat < s.cfg.tickUs.toNat := by
  obtain ⟨hpresc, htick⟩ := h
  rw [(timeStep_msPresc_timeMs s).1, (timeStep_tickCnt_irq s).1]
  refine ⟨?_, ?_⟩
  · split
    · decide
    · next hne => bv_omega
  · split
    · exact Nat.zero_lt_of_lt htick
    · next hne => bv_omega

/-- A running conversion counts down, and ends at 0 (40_sampleclock.md R101). -/
theorem timeStep_conversion
    (h : s.adc.busy = true → 1 ≤ s.adc.remain.toNat ∧ s.adc.remain.toNat ≤ s.cfg.adcConvUs.toNat) :
    (timeStep s).adc.busy = true →
      1 ≤ (timeStep s).adc.remain.toNat ∧ (timeStep s).adc.remain.toNat ≤ s.cfg.adcConvUs.toNat := by
  cases hbusy : s.adc.busy with
  | false =>
    rw [timeStep_adc_of_idle hbusy, hbusy]
    exact nofun
  | true =>
    obtain ⟨hlow, hhigh⟩ := h hbusy
    by_cases hlast : s.adc.remain - 1 = 0
    · rw [timeStep_adc_of_last hbusy hlast]
      exact nofun
    · rw [timeStep_adc_of_counting hbusy hlast]
      exact fun _ => ⟨by bv_omega, by bv_omega⟩

/-- Of what the units hold, time passing writes the clocks and the converter only. -/
theorem timeStep_unitsSound (h : UnitsSound s) : UnitsSound (timeStep s) := by
  have hclocks := timeStep_clocks h.clocks
  have hconversion := timeStep_conversion h.conversion
  rw [timeStep_changes_only]
  exact { h with clocks := hclocks, conversion := hconversion }

/-! ## `in_isr` (10_state.md R27) -/

@[simp] theorem timeStep_inIsr (s : State) : (timeStep s).irq.inIsr = s.irq.inIsr := by
  rw [timeStep_changes_only]

/-! ## The invariant, kind by kind -/

theorem Invariant.withAgenda (h : Invariant s) (rest : List Move) : Invariant { s with agenda := rest } := { h with }

/-- A handler keeps the emulator, and its return clears `in_isr` (60_exceptions.md R267). -/
theorem Invariant.handler {handler : State → State} (h : Invariant s) (k : Nat)
    (hunits : ∀ {u}, UnitsSound u → UnitsSound (handler u)) (hcfg : ∀ u, (handler u).cfg = u.cfg)
    (htime : ∀ u, (handler u).time = u.time) (hemu : ∀ u, (handler u).emu = u.emu) :
    Invariant (returnFromInterrupt (handler (enterInterrupt { s with free := k }))) := by
  have hentered : UnitsSound (enterInterrupt { s with free := k }) := { h.unitsSound with }
  have hreturned : UnitsSound (returnFromInterrupt (handler (enterInterrupt { s with free := k }))) :=
    { hunits hentered with }
  exact hreturned.invariant rfl (h.emulator.congr (hcfg _) (htime _) (hemu _))

theorem Invariant.timeStep (h : Invariant s) : Invariant (timeStep s) := by
  obtain ⟨-, -, -, -, -, -, -, -, hbit, -⟩ := (legalParams_iff s.cfg).1 h.legal
  exact (timeStep_unitsSound h.unitsSound).invariant ((timeStep_inIsr s).trans h.noHandler)
    (timeStep_emulatorSound h.emulator hbit)

/-- The environment moves the pins and requests the edge interrupt (20_memory.md R71). -/
theorem Invariant.envStep (h : Invariant s) (e : EnvStep) : Invariant (envStep e s) := by
  rw [envStep_changes_only]
  exact { h with }

/-- A word that is no operation of the port writes the faults and RESP (60_exceptions.md R263). -/
theorem Invariant.raiseFault (h : Invariant s) (c : FaultCode) (w : Word) : Invariant (raiseFault c w s) := { h with }

/-- An operation of the port, which is free. -/
theorem Invariant.exec {i : Instr} (h : Invariant s) (hfree : s.emu.writing = false) (hport : i.isInternal = false)
    (hexec : exec i s = .next t) : Invariant t := by
  obtain ⟨-, -, -, -, -, -, -, -, hbit, -⟩ := (legalParams_iff s.cfg).1 h.legal
  obtain ⟨htime, -, hcfg, -⟩ := surroundings_eq_iff.1 (exec_surroundings hexec)
  obtain ⟨hisr, -, -⟩ := (exec_irqEffect hexec).inIsr_overruns
  exact (exec_unitsSound h.unitsSound hexec).invariant (hisr.trans h.noHandler)
    ((exec_emulatorWrite hport hexec).emulatorSound h.emulator hfree hbit hcfg htime)

end

/-- Settles O5: every kind of step keeps the invariant. -/
theorem stepKeepsInvariant : Obligations.StepKeepsInvariant := by
  intro s t h hstep
  cases stepKind_of_step hstep with
  | tick free _ _ ht =>
    rw [ht]
    exact h.handler free tickHandler_unitsSound tickHandler_cfg tickHandler_time tickHandler_emu
  | edge free ht =>
    rw [ht]
    exact h.handler free edgeHandler_unitsSound edgeHandler_cfg edgeHandler_time edgeHandler_emu
  | time rest _ _ ht => rw [ht]; exact (h.withAgenda rest).timeStep
  | env e rest ht => rw [ht]; exact (h.withAgenda rest).envStep e
  | illegal w rest ht => rw [ht]; exact (h.withAgenda rest).raiseFault _ w
  | command i rest _ hfree hport hexec => exact (h.withAgenda rest).exec hfree hport hexec

end Sys2Proof.Machine
end
